-- ==== Sys2Proof/Word.lean ====
section
/-! DEFINITION. The word types of the block: bytes and 16-bit quantities (R17). -/

namespace Sys2Proof

/-- A byte, an unsigned integer 0..255 (`u8`, R17). -/
abbrev Byte := BitVec 8

/-- A 16-bit quantity, an unsigned integer 0..65535 (`u16`, R17). -/
abbrev U16 := BitVec 16

end Sys2Proof
end

