-- ==== Sys2Proof/Config.lean ====
section
/-! DEFINITION. The named constants of the protocol (R8 to R15), the open parameters (R16) and the free values:
the transport's answers (R150, R151, U8), which nothing in Lean can evaluate. -/

namespace Sys2Proof

/-- The five names of the register catalog (R158). -/
inductive RegisterName where
  | angleSet
  | forceSet
  | speedSet
  | angleAct
  | forceAct
  deriving DecidableEq, Repr, Inhabited

/-- What the transport's write capability answers (R150). -/
inductive WriteAnswer where
  | success
  | transportError
  deriving DecidableEq, Repr, Inhabited

/-- What the transport's read capability answers (R151, R160). -/
inductive ReadAnswer where
  /-- The read succeeds. In a queued answer the list fixes the first bytes, and the rest of the requested count is free. -/
  | bytes (bs : List Byte)
  /-- The read fails. -/
  | transportError
  /-- The bytes never become available (U15). -/
  | never
  deriving DecidableEq, Repr, Inhabited

namespace Config

/-- `SYNC0`, the byte at offset 0 of every request frame (R8). -/
def sync0 : Byte := 0xEB
/-- `SYNC1`, the byte at offset 1 of every request frame (R8). -/
def sync1 : Byte := 0x90
/-- `CMD_WRITE` (R9). -/
def cmdWrite : Byte := 0x12
/-- `CMD_READ` (R9). -/
def cmdRead : Byte := 0x11
/-- `MAX_VALUES` (R10). -/
def maxValues : Nat := 6
/-- `READ_DATA_LENGTH` (R11). -/
def readDataLength : Byte := 0x04
/-- `READ_LENGTH_BYTE` (R11). -/
def readLengthByte : Byte := 0x0C
/-- `PARSE_BASE` (R12). -/
def parseBase : Nat := 7
/-- `PARSE_STRIDE` (R12). -/
def parseStride : Nat := 2
/-- `PARSE_SLOTS` (R12). -/
def parseSlots : Nat := 6
/-- `CLAMP_LIMIT` (R13). -/
def clampLimit : Nat := 6000
/-- `ACK_LEN` (R14). -/
def ackLen : Nat := 9
/-- `FRAME_MAX` (R15). -/
def frameMax : Nat := 20

/-- `registerAddress` (R158, D25): no source gives an address, so none can be evaluated. Log 10. -/
opaque registerAddress : RegisterName → U16

/-- `transportTimeout` (R160, D26): `none` is a transport without a timeout. Log 5. -/
opaque transportTimeout : Option Nat

/-- The transport's answer to a write, by draw number (R150, U8). Log 4. -/
opaque writeAnswer : Nat → WriteAnswer

/-- The transport's answer to a read, by draw number (R151, U8). Log 4. -/
opaque readAnswer : Nat → ReadAnswer

/-- The byte at an offset of a read's result that no queued answer fixes, by draw number (R151, U6, U8). Log 4. -/
opaque transportByte : Nat → Nat → Byte

end Config
end Sys2Proof
end

