-- ==== Sys2Proof/Machine/Bytes.lean ====
section
/-! DEFINITION. Byte order (R41), the little-endian pair read (R18) and the checksum function (R100). -/

namespace Sys2Proof.Machine

/-- `v[7:0]` (R17). -/
def loByte (v : U16) : Byte := v.extractLsb' 0 8

/-- `v[15:8]` (R17). -/
def hiByte (v : U16) : Byte := v.extractLsb' 8 8

/-- A 16-bit quantity as its two bytes, the byte of the lower offset first (R41). -/
def toBytes (v : U16) : List Byte := [loByte v, hiByte v]

/-- `low | (high << 8)` (R41, R70). -/
def ofBytes (lo hi : Byte) : U16 := lo.setWidth 16 ||| (hi.setWidth 16 <<< 8)

/-- `MemRead(s, i, 2)` (R18): defined only when both offsets lie inside the sequence. -/
def memRead16 (s : List Byte) (i : Nat) : Option U16 :=
  match s[i]?, s[i + 1]? with
  | some lo, some hi => some (ofBytes lo hi)
  | _, _ => none

/-- A payload as little-endian 16-bit values (R62); an odd number of bytes is none. -/
def toU16s : List Byte → Option (List U16)
  | [] => some []
  | [_] => none
  | lo :: hi :: rest => (toU16s rest).map (ofBytes lo hi :: ·)

/-- `sum(s)`, the mathematical sum of the bytes as unsigned integers (R18). -/
def byteSum : List Byte → Nat
  | [] => 0
  | b :: s => b.toNat + byteSum s

/-- `Checksum8(s) = sum(s) mod 256` (R100). -/
def checksum8 (s : List Byte) : Byte := BitVec.ofNat 8 (byteSum s)

end Sys2Proof.Machine
end

