-- ==== Sys2Proof/Machine/Layout.lean ====
section
/-! DEFINITION. The request frame layout (R62), for the write frame (R64) and the read frame (R66). -/

namespace Sys2Proof.Machine

/-- The bytes of a request frame, offset 0 first (R62): sync bytes, device id, data length, command, address (low byte
first), payload, and the checksum of everything from offset 2 on (R68). -/
def requestFrame (dev dataLength cmd : Byte) (addr : U16) (payload : List Byte) : List Byte :=
  let f := [Config.sync0, Config.sync1, dev, dataLength, cmd, loByte addr, hiByte addr] ++ payload
  f ++ [checksum8 (f.drop 2)]

/-- The write frame with the given 16-bit values (R64). -/
def writeFrame (dev : Byte) (addr : U16) (vals : List U16) : List Byte :=
  requestFrame dev (BitVec.ofNat 8 (2 * vals.length + 3)) Config.cmdWrite addr (vals.flatMap toBytes)

/-- The read frame (R66). -/
def readFrame (dev : Byte) (addr : U16) : List Byte :=
  requestFrame dev Config.readDataLength Config.cmdRead addr [Config.readLengthByte]

end Sys2Proof.Machine
end

