-- ==== Sys2Proof/Syntax.lean ====
section
/-! DEFINITION. The instructions (one constructor per row of spec/opcode_table.json), the operation port and the
frames they are read from, and the events of the host's sequence (R24, R28, R60, R62, R76, R77). -/

namespace Sys2Proof

/-- The instructions: the four operations of R60, and the two request frames of the wire protocol (R64, R66). -/
inductive Instr where
  /-- BUILD_WRITE `<dev>, <addr>, {<values>}` (R101): the values are integers of any magnitude, in any number (R28). -/
  | buildWrite (dev : Byte) (addr : U16) (vals : List Int)
  /-- BUILD_READ `<dev>, <addr>` (R105). -/
  | buildRead (dev : Byte) (addr : U16)
  /-- PARSE `{<bytes>}` (R130). -/
  | parse (raw : List Byte)
  /-- CHECKSUM `{<bytes>}` (R107). -/
  | checksum (csIn : List Byte)
  /-- FRAME_WRITE (R64): the write-request frame, handed to the transport (log 6). -/
  | frameWrite (dev : Byte) (addr : U16) (vals : List U16)
  /-- FRAME_READ (R66): the read-request frame, handed to the transport by a caller that asks for
  `responseLength` response bytes (R71, R155; log 6). -/
  | frameRead (dev : Byte) (addr : U16) (responseLength : Nat)
  deriving DecidableEq, Repr

/-- The operation port (R28, R60). An operand port that the selected operation does not use is ignored. -/
structure Ports where
  op : BitVec 2
  devId : Byte
  addr : U16
  vals : List Int
  raw : List Byte
  csIn : List Byte
  deriving DecidableEq, Repr

/-- The form in which an instruction arrives: on the operation port (R60), or as the bytes of a request frame, lowest
offset first (R62, R152), with the response byte count the caller asks for (R71). -/
inductive Request where
  | port (p : Ports)
  | frame (bytes : List Byte) (responseLength : Nat)
  deriving DecidableEq, Repr

/-- Why a byte sequence is no request frame (R62, R64, R66, R72). Log 8. -/
inductive DecodeError where
  /-- Fewer than eight bytes, the length of the shortest frame (R15). -/
  | truncatedFrame
  /-- Offsets 0 and 1 are not the sync bytes (R8). -/
  | badSync
  /-- The command byte is neither 0x12 nor 0x11: it has no meaning in the spec (R72). -/
  | unknownCommand
  /-- The data-length byte does not give the frame's length (R69). -/
  | badDataLength
  /-- The last byte is not the checksum of offsets 2 to the one before it (R68). -/
  | badChecksum
  /-- The payload has not the form of R64 or R66. -/
  | badPayload
  deriving DecidableEq, Repr

/-- What the host can read of the block (R21 to R23, R26). -/
inductive LatchField where
  | status
  | frameLen
  | frameByte (i : Nat)
  | valueCount
  | value (k : Nat)
  | csumValue
  deriving DecidableEq, Repr

/-- One event of the host's sequence (R24). -/
inductive HostEvent where
  /-- An operation on the port, or a request frame handed to the transport. -/
  | request (r : Request)
  /-- WRITE_REGISTER `<dev>, <name>, {<values>}` (R153). -/
  | writeRegister (dev : Byte) (name : String) (vals : List Int)
  /-- READ_REGISTER `<dev>, <name>, <responseLength>` (R155). -/
  | readRegister (dev : Byte) (name : String) (responseLength : Nat)
  /-- The host reads a latch field or STATUS (R30, R31). -/
  | readLatch (f : LatchField)
  deriving DecidableEq, Repr

end Sys2Proof
end

