-- ==== Sys2Proof/WellFormed.lean ====
section
/-! DEFINITION. Which instruction terms an encoding exists for. -/

namespace Sys2Proof

/-- A write frame carries at most six values (R10, R64). Every other operand takes every value of its type (R63, R28):
BUILD_WRITE with more than six values is a well-formed request that the operation itself refuses (R73). -/
def Instr.wf : Instr → Bool
  | .buildWrite _ _ _ => true
  | .buildRead _ _ => true
  | .parse _ => true
  | .checksum _ => true
  | .frameWrite _ _ vals => decide (vals.length ≤ Config.maxValues)
  | .frameRead _ _ _ => true

end Sys2Proof
end

