-- ==== Sys2Proof/Decode.lean ====
section
/-! DEFINITION. Decoding a request to an instruction, total and rejecting by name; then the encoder; then the table's
words (spec/opcode_table.json). -/

namespace Sys2Proof

open Machine

/-- The operation an OP select names, its operands sampled from the ports it uses (R28, R60). Total (R61). -/
def decodePorts (p : Ports) : Instr :=
  match p.op with
  | 0b00#2 => .buildWrite p.devId p.addr p.vals
  | 0b01#2 => .buildRead p.devId p.addr
  | 0b10#2 => .parse p.raw
  | 0b11#2 => .checksum p.csIn

/-- The payload of a frame as its command byte reads it: the fixed length-to-read byte (R66), or at most six
little-endian values (R64). -/
def decodePayload (dev : Byte) (addr : U16) (cmd : Byte) (payload : List Byte) (responseLength : Nat) :
    Except DecodeError Instr :=
  if cmd = Config.cmdRead then
    if payload = [Config.readLengthByte] then .ok (.frameRead dev addr responseLength) else .error .badPayload
  else
    match toU16s payload with
    | some vals => if vals.length ≤ Config.maxValues then .ok (.frameWrite dev addr vals) else .error .badPayload
    | none => .error .badPayload

/-- The request frame that a byte sequence is (R62 to R69), or the reason why it is none. -/
def decodeFrame (bytes : List Byte) (responseLength : Nat) : Except DecodeError Instr :=
  match bytes with
  | s0 :: s1 :: dev :: dataLength :: cmd :: addrLo :: addrHi :: b :: rest =>
    if s0 ≠ Config.sync0 ∨ s1 ≠ Config.sync1 then .error .badSync
    else if cmd ≠ Config.cmdWrite ∧ cmd ≠ Config.cmdRead then .error .unknownCommand
    else if bytes.length ≠ dataLength.toNat + 5 then .error .badDataLength
    else if bytes.getLast? ≠ some (checksum8 (bytes.drop 2).dropLast) then .error .badChecksum
    else decodePayload dev (ofBytes addrLo addrHi) cmd (b :: rest).dropLast responseLength
  | _ => .error .truncatedFrame

/-- The instruction a request stands for. -/
def decode : Request → Except DecodeError Instr
  | .port p => .ok (decodePorts p)
  | .frame bytes responseLength => decodeFrame bytes responseLength

/-- A port request with every operand port zero or empty. -/
def Ports.select (op : BitVec 2) : Ports := ⟨op, 0, 0, [], [], []⟩

/-- The request that an instruction is issued by (R60, R64, R66). Unused operand ports carry zero; a write frame's
caller asks for no response. -/
def encode : Instr → Request
  | .buildWrite dev addr vals => .port { Ports.select 0b00 with devId := dev, addr := addr, vals := vals }
  | .buildRead dev addr => .port { Ports.select 0b01 with devId := dev, addr := addr }
  | .parse raw => .port { Ports.select 0b10 with raw := raw }
  | .checksum csIn => .port { Ports.select 0b11 with csIn := csIn }
  | .frameWrite dev addr vals => .frame (writeFrame dev addr vals) 0
  | .frameRead dev addr responseLength => .frame (readFrame dev addr) responseLength

/-- The shortest frame with a given command byte at offset 4 and zero operands: a read frame for 0x11, otherwise the
seven fixed bytes and the checksum, with the data length of a write frame of no values (R64, R66). Log 7. -/
def bareFrame (cmd : Byte) : List Byte :=
  if cmd = Config.cmdRead then readFrame 0 0 else requestFrame 0 3 cmd 0 []

/-- The request of a word of spec/opcode_table.json: 0 to 3 is an OP select with every operand port zero (R60); any
other byte is the command byte of a request frame, at its offset 4 (R62). No row of the table is wider. Log 7. -/
def Request.ofTableWord (nbits w : Nat) : Request :=
  let v := w % 2 ^ nbits
  if v < 4 then .port (Ports.select (BitVec.ofNat 2 v))
  else if v < 256 then .frame (bareFrame (BitVec.ofNat 8 v)) 0
  else .frame [] 0

/-- The instruction the decoder reads from a word of spec/opcode_table.json, none where it refuses. -/
def decodeTableWord (nbits w : Nat) : Option Instr :=
  match decode (Request.ofTableWord nbits w) with
  | .ok i => some i
  | .error _ => none

end Sys2Proof
end

