-- ==== Sys2Proof/Machine/Operands.lean ====
section
/-! DEFINITION. What the operations make of their operands: 16-bit truncation of a write value (R65) and the values of a
raw response (R70, R130 to R132). -/

namespace Sys2Proof.Machine

/-- `v mod 65536`, the two's-complement low 16 bits (R65, R103, D10; log 11). -/
def truncate16 (v : Int) : U16 := BitVec.ofInt 16 v

/-- A value above `CLAMP_LIMIT` is replaced by 0; the comparison is strict (R132). -/
def clamp (v : U16) : U16 := if Config.clampLimit < v.toNat then 0 else v

/-- The raw offset of slot k's low byte (R12, R70). -/
def slotOffset (k : Nat) : Nat := Config.parseBase + Config.parseStride * k

/-- The value of slot k of a raw response, if the slot is present (R130, R131). -/
def slotValue (raw : List Byte) (k : Nat) : Option U16 := (memRead16 raw (slotOffset k)).map clamp

/-- The values of a raw response, one for each present slot, in slot order (R130). -/
def parseValues (raw : List Byte) : List U16 := (List.range Config.parseSlots).filterMap (slotValue raw)

end Sys2Proof.Machine
end

