-- ==== Sys2Proof/Machine/State.lean ====
section
/-! DEFINITION. Everything the spec gives the machine to hold (10_state.md; 42_host_protocol.md for the host's side), the
reasons a step can stop, and the machine right after reset (R32). -/

namespace Sys2Proof.Machine

/-- The FRAME latch (R21). Bytes at offsets `len` and above hold no value (log 3). -/
structure FrameLatch where
  /-- FRAME_VALID. -/
  valid : Bool
  /-- FRAME_LEN. -/
  len : BitVec 5
  /-- FRAME_BYTES[0..19]. -/
  bytes : Vector Byte 20
  deriving DecidableEq, Repr

/-- The VALUES latch (R22). Slots `count` and above hold no value (log 3). -/
structure ValuesLatch where
  /-- VALUES_VALID. -/
  valid : Bool
  /-- VALUE_COUNT. -/
  count : BitVec 3
  /-- VALUE[0..5]. -/
  slots : Vector U16 6
  deriving DecidableEq, Repr

/-- The CSUM latch (R23). -/
structure CsumLatch where
  /-- CSUM_VALID. -/
  valid : Bool
  /-- CSUM_VALUE. -/
  value : Byte
  deriving DecidableEq, Repr

/-- What a latch read returns, each field at its own width (R21 to R23, R26). -/
inductive ReadOut where
  | status (v : BitVec 8)
  | frameLen (v : BitVec 5)
  | frameByte (v : Byte)
  | valueCount (v : BitVec 3)
  | value (v : U16)
  | csumValue (v : Byte)
  deriving DecidableEq, Repr

/-- The five outcomes of a host operation (R174). READ_REGISTER's Ok carries the parsed values, WRITE_REGISTER's none. -/
inductive HostOutcome where
  | ok (values : Option (List U16))
  | okDrainFailed
  | configurationError
  | validationError
  | transportError
  deriving DecidableEq, Repr

/-- What `addressOf` answers (R158): an address, or the distinct outcome NotFound. -/
inductive Lookup where
  | address (a : U16)
  | notFound
  deriving DecidableEq, Repr

/-- Where the host stands in the host operation or frame transaction it is running (R153, R155), between two of its
actions on the block. -/
inductive HostTask where
  /-- It runs none: it issues its next event. -/
  | idle
  /-- WRITE_REGISTER has run BUILD_WRITE: next, the host tests ERR and reads the frame (R153, R196). -/
  | writeBuilt
  /-- READ_REGISTER has run BUILD_READ: next, the host reads the frame (R155). -/
  | readBuilt (responseLength : Nat)
  /-- The response of a read frame has been read: next, PARSE (R155). -/
  | received (response : List Byte)
  /-- PARSE has run: next, the host reads the values and returns them (R155). -/
  | parsed
  /-- It is blocked in a read that never completes (R160, U15). Log 5. -/
  | blocked
  deriving DecidableEq, Repr

/-- One call of the transport, with what it answered (R150, R151). -/
inductive TransportCall where
  /-- The bytes handed over in one write call, the first byte first (R152). A failed write says nothing about what
  reached the wire (N17). -/
  | write (bytes : List Byte) (answer : WriteAnswer)
  /-- A read of exactly `length` bytes. -/
  | read (length : Nat) (answer : ReadAnswer)
  deriving DecidableEq, Repr

/-- Why the machine stops with a fault. -/
inductive Fault where
  /-- `ReadInvalidLatch` (R30, R173, U1, U2): raised by a host read of a field that holds no value, be it a latch read of
  its own or the read-out of a host operation. Safe: the model names no value there. -/
  | readInvalidLatch (field : LatchField)
  deriving DecidableEq, Repr

/-- Why a step is refused. -/
inductive Refusal where
  /-- An instruction without a meaning, refused in exec's arm. Safe. No arm is refused. -/
  | notModelled (mnemonic : String)
  /-- Raised by the step on bytes that are no request frame: they have no meaning in the spec (R72). Safe. -/
  | notAFrame (reason : DecodeError)
  /-- Raised by the step on a state whose ERR code is reserved, which no operation writes (R25, U4). Safe. -/
  | reservedErrCode
  /-- Raised by the lookup of the empty register name, and so by a host operation on it (R158, U7). Safe. -/
  | emptyRegisterName
  deriving DecidableEq, Repr

/-- The machine: the block's latches and ERR (R20 to R25), the host's side of its interface, and the transport as the
host sees it. -/
structure State where
  /-- FRAME latch (R21). -/
  frame : FrameLatch
  /-- VALUES latch (R22). -/
  values : ValuesLatch
  /-- CSUM latch (R23). -/
  csum : CsumLatch
  /-- ERR (R25). -/
  err : BitVec 2
  /-- The host's position: how many operations the block has accepted (R24). -/
  position : Nat
  /-- The rest of the host's sequence (R24, R204). Log 1. -/
  pending : List HostEvent
  /-- What the host's last latch read returned. Log 13. -/
  readOut : Option ReadOut
  /-- The outcome of the last host operation that returned (R174); none before the first. -/
  outcome : Option HostOutcome
  /-- Where the host stands in the host operation it is running (R153, R155, R157). -/
  task : HostTask
  /-- The platform's reset, one entry for each step to come: whether the platform resets the block then (R190). Past the
  end there is no reset. Log 14. -/
  resetLine : List Bool
  /-- The transport calls so far, the first one first. Log 13. -/
  traffic : List TransportCall
  /-- The write answers that the environment has fixed. Log 4. -/
  writeAnswers : List WriteAnswer
  /-- The read answers that the environment has fixed. Log 4. -/
  readAnswers : List ReadAnswer
  /-- How many answers have been drawn; the free values of Config are applied to it. Log 4. -/
  draws : Nat
  deriving DecidableEq, Repr

/-- The machine after reset: every valid bit 0 and ERR = NONE (R32). The latch contents, which R32 leaves unspecified
and unreadable, are zero (log 2); the host has issued nothing. -/
def State.reset : State where
  frame := { valid := false, len := 0, bytes := Vector.replicate 20 0 }
  values := { valid := false, count := 0, slots := Vector.replicate 6 0 }
  csum := { valid := false, value := 0 }
  err := 0
  position := 0
  pending := []
  readOut := none
  outcome := none
  task := .idle
  resetLine := []
  traffic := []
  writeAnswers := []
  readAnswers := []
  draws := 0

end Sys2Proof.Machine
end

