-- ==== Sys2Proof/Machine/Flags.lean ====
section
/-! DEFINITION. ERR, the block's only flag besides the valid bits (R25, R27), and STATUS, the host's view of them (R26). -/

namespace Sys2Proof.Machine

/-- ERR code 0, NONE (R25). -/
def errNone : BitVec 2 := 0

/-- ERR code 1, TOO_MANY_VALUES (R25). -/
def errTooManyValues : BitVec 2 := 1

/-- ERR holds one of the two codes that are not reserved (R25). -/
def State.errLegal (s : State) : Bool := decide (s.err = errNone) || decide (s.err = errTooManyValues)

/-- STATUS: bit 0 FRAME_VALID, bit 1 VALUES_VALID, bit 2 CSUM_VALID, bits 4:3 ERR, bits 7:5 zero (R26). -/
def statusByte (s : State) : BitVec 8 :=
  (0#3 ++ s.err) ++ BitVec.ofBool s.csum.valid ++ BitVec.ofBool s.values.valid ++ BitVec.ofBool s.frame.valid

end Sys2Proof.Machine
end

