-- ==== Sys2Proof/Machine/Ops.lean ====
section
/-! DEFINITION. The named operations over the latches, the block's error (R102, R171), the host's latch read (R30), the
platform's reset (R191), and the transport's two capabilities (R150, R151). -/

namespace Sys2Proof.Machine

/-- The block has accepted one operation (R24). -/
def State.accept (s : State) : State := { s with position := s.position + 1 }

/-- ERR <- NONE (R25). -/
def State.succeed (s : State) : State := { s with err := errNone }

/-- The FRAME latch after a build: the frame's length and bytes, FRAME_VALID <- 1. Offsets beyond the frame keep their
content, which holds no value (R21, R101; log 3). -/
def FrameLatch.load (l : FrameLatch) (f : List Byte) : FrameLatch where
  valid := true
  len := BitVec.ofNat 5 f.length
  bytes := Vector.ofFn fun i => f[i.val]?.getD l.bytes[i.val]

/-- The VALUES latch after PARSE: the count and the values, VALUES_VALID <- 1. Slots beyond the count keep their content,
which holds no value (R22, R130; log 3). -/
def ValuesLatch.load (l : ValuesLatch) (vals : List U16) : ValuesLatch where
  valid := true
  count := BitVec.ofNat 3 vals.length
  slots := Vector.ofFn fun k => vals[k.val]?.getD l.slots[k.val]

/-- The FRAME latch takes a frame. -/
def State.loadFrame (s : State) (f : List Byte) : State := { s with frame := s.frame.load f }

/-- The VALUES latch takes a parse result. -/
def State.loadValues (s : State) (vals : List U16) : State := { s with values := s.values.load vals }

/-- The CSUM latch takes a checksum (R23, R107). -/
def State.loadCsum (s : State) (c : Byte) : State := { s with csum := { valid := true, value := c } }

/-- `raise TooManyValues`: ERR <- 1 and FRAME_VALID <- 0, and nothing else (R102). The block's only error: there is no
trap, and nothing to return from (R171, R172). -/
def State.raiseTooManyValues (s : State) : State :=
  { s with err := errTooManyValues, frame := { s.frame with valid := false } }

/-- What the platform's reset does to the block: every valid bit 0, ERR = NONE, the contents unreadable; nothing outside
the block changes (R32, R191; log 3). -/
def State.resetBlock (s : State) : State :=
  { s with
    frame := { s.frame with valid := false }
    values := { s.values with valid := false }
    csum := { s.csum with valid := false }
    err := errNone }

/-- FRAME_BYTES[0..FRAME_LEN-1]. -/
def FrameLatch.contents (l : FrameLatch) : List Byte := l.bytes.toList.take l.len.toNat

/-- VALUE[0..VALUE_COUNT-1]. -/
def ValuesLatch.contents (l : ValuesLatch) : List U16 := l.slots.toList.take l.count.toNat

/-- The host's read of one field: STATUS always reads; a field that holds no value faults (R30). An offset or slot that
does not exist (20 and above, 6 and above) holds none either. -/
def readLatch (f : LatchField) (s : State) : Except Fault ReadOut :=
  match f with
  | .status => .ok (.status (statusByte s))
  | .frameLen => if s.frame.valid then .ok (.frameLen s.frame.len) else .error (.readInvalidLatch f)
  | .frameByte i =>
    match s.frame.valid, s.frame.contents[i]? with
    | true, some b => .ok (.frameByte b)
    | _, _ => .error (.readInvalidLatch f)
  | .valueCount => if s.values.valid then .ok (.valueCount s.values.count) else .error (.readInvalidLatch f)
  | .value k =>
    match s.values.valid, s.values.contents[k]? with
    | true, some v => .ok (.value v)
    | _, _ => .error (.readInvalidLatch f)
  | .csumValue => if s.csum.valid then .ok (.csumValue s.csum.value) else .error (.readInvalidLatch f)

/-- The host reads the whole frame, FRAME_BYTES[0..FRAME_LEN-1] (R153, R155): FRAME_LEN first, which faults when it
holds no value (R30). -/
def readFrameBytes (s : State) : Except Fault (List Byte) :=
  if s.frame.valid then .ok s.frame.contents else .error (.readInvalidLatch .frameLen)

/-- The host reads the parsed values, VALUE[0..VALUE_COUNT-1] (R155): VALUE_COUNT first, which faults when it holds no
value (R30). -/
def readValues (s : State) : Except Fault (List U16) :=
  if s.values.valid then .ok s.values.contents else .error (.readInvalidLatch .valueCount)

/-- A host operation returns an outcome (R174). -/
def State.returnOutcome (s : State) (o : HostOutcome) : State := { s with outcome := some o }

/-- The host goes on to another point of its host operation. -/
def State.goTo (s : State) (k : HostTask) : State := { s with task := k }

/-- The transport's next write answer: the first one the environment has fixed, else a free value (R150, U8). -/
def State.nextWriteAnswer (s : State) : WriteAnswer := s.writeAnswers.head?.getD (Config.writeAnswer s.draws)

/-- The first `n` bytes of a read's result: those a queued answer fixes, then free bytes of this draw (R151, U8). -/
def drawnBytes (fixed : List Byte) (draw n : Nat) : List Byte :=
  (List.range n).map fun i => fixed[i]?.getD (Config.transportByte draw i)

/-- The transport's next read answer as the host gets it: a success carries exactly `n` bytes, and a read that would
never complete ends in a failure where the transport has a timeout (R151, R160, U8, U15; log 5). -/
def State.nextReadAnswer (s : State) (n : Nat) : ReadAnswer :=
  match s.readAnswers.head?.getD (Config.readAnswer s.draws) with
  | .bytes fixed => .bytes (drawnBytes fixed s.draws n)
  | .transportError => .transportError
  | .never => if Config.transportTimeout.isSome then .transportError else .never

/-- The state after `transport.write(f)`: one call recorded, one answer drawn (R150). -/
def State.transportWrite (s : State) (f : List Byte) : State :=
  { s with
    traffic := s.traffic ++ [.write f s.nextWriteAnswer]
    writeAnswers := s.writeAnswers.tail
    draws := s.draws + 1 }

/-- The state after `transport.read(n)`: one call recorded, one answer drawn (R151). -/
def State.transportRead (s : State) (n : Nat) : State :=
  { s with
    traffic := s.traffic ++ [.read n (s.nextReadAnswer n)]
    readAnswers := s.readAnswers.tail
    draws := s.draws + 1 }

end Sys2Proof.Machine
end

