-- ==== Sys2Proof/Machine/FrameCodec.lean ====
section
/-! DEFINITION. The frame encoder and the checksum calculator (40_frame_codec.md): BUILD_WRITE, BUILD_READ, CHECKSUM. -/

namespace Sys2Proof.Machine

/-- BUILD_WRITE (R101): more than six values are refused with TOO_MANY_VALUES before any byte is formed (R102). -/
def buildWrite (dev : Byte) (addr : U16) (vals : List Int) (s : State) : State :=
  if Config.maxValues < vals.length then s.raiseTooManyValues.accept
  else (s.loadFrame (writeFrame dev addr (vals.map truncate16))).succeed.accept

/-- BUILD_READ (R105). -/
def buildRead (dev : Byte) (addr : U16) (s : State) : State :=
  (s.loadFrame (readFrame dev addr)).succeed.accept

/-- The meaning of BUILD_WRITE (R101 to R103). -/
def execBuildWrite (dev : Byte) (addr : U16) (vals : List Int) (s : State) : Host.Outcome State Fault Refusal :=
  .next (buildWrite dev addr vals s)

/-- The meaning of BUILD_READ (R105, R106). -/
def execBuildRead (dev : Byte) (addr : U16) (s : State) : Host.Outcome State Fault Refusal :=
  .next (buildRead dev addr s)

/-- The meaning of CHECKSUM (R107, R108). -/
def execChecksum (csIn : List Byte) (s : State) : Host.Outcome State Fault Refusal :=
  .next (s.loadCsum (checksum8 csIn)).succeed.accept

end Sys2Proof.Machine
end

