-- ==== Sys2Proof/Machine/ResponseParser.lean ====
section
/-! DEFINITION. The response value extractor (41_response_parser.md): PARSE. -/

namespace Sys2Proof.Machine

/-- PARSE (R130): never an error, whatever the response (R135). -/
def parse (raw : List Byte) (s : State) : State := (s.loadValues (parseValues raw)).succeed.accept

/-- The meaning of PARSE (R130 to R137). -/
def execParse (raw : List Byte) (s : State) : Host.Outcome State Fault Refusal := .next (parse raw s)

end Sys2Proof.Machine
end

