-- ==== Sys2Proof/Machine/WireFrames.lean ====
section
/-! DEFINITION. The two request frames on the wire: the transport transaction of the host protocol that carries each
(R153, R154, R155). No latch is touched. Log 6. -/

namespace Sys2Proof.Machine

/-- The drain read after a write, whose bytes are discarded and whose failure does not fail the write (R153, R154). A
read that never completes leaves the host blocked (R160). -/
def drainAck (s : State) : State :=
  match s.nextReadAnswer Config.ackLen with
  | .bytes _ => (s.transportRead Config.ackLen).returnOutcome (.ok none)
  | .transportError => (s.transportRead Config.ackLen).returnOutcome .okDrainFailed
  | .never => (s.transportRead Config.ackLen).goTo .blocked

/-- A write frame goes to the transport, and the acknowledgment is drained (R153 from `transport.write(f)` on). A write
failure is returned at once, with no read and no retry (R150, R156). -/
def sendWriteFrame (f : List Byte) (s : State) : State :=
  match s.nextWriteAnswer with
  | .success => drainAck (s.transportWrite f)
  | .transportError => (s.transportWrite f).returnOutcome .transportError

/-- The response read (R155): the response is the host's to PARSE next; a failure aborts the operation. -/
def receiveResponse (responseLength : Nat) (s : State) : State :=
  match s.nextReadAnswer responseLength with
  | .bytes r => (s.transportRead responseLength).goTo (.received r)
  | .transportError => (s.transportRead responseLength).returnOutcome .transportError
  | .never => (s.transportRead responseLength).goTo .blocked

/-- A read frame goes to the transport, and the response is read (R155 from `transport.write(f)` on). -/
def sendReadFrame (f : List Byte) (responseLength : Nat) (s : State) : State :=
  match s.nextWriteAnswer with
  | .success => receiveResponse responseLength (s.transportWrite f)
  | .transportError => (s.transportWrite f).returnOutcome .transportError

/-- The meaning of FRAME_WRITE (R64, R153): the frame's transaction. With more than six values there is no such frame,
and the host protocol's ValidationError is returned with no I/O (R109, R174; log 9). -/
def execFrameWrite (dev : Byte) (addr : U16) (vals : List U16) (s : State) : Host.Outcome State Fault Refusal :=
  .next (if Config.maxValues < vals.length then s.returnOutcome .validationError
    else sendWriteFrame (writeFrame dev addr vals) s)

/-- The meaning of FRAME_READ (R66, R155): the frame's transaction. The host goes on from the response as R155 does,
with PARSE (`hostAction`). -/
def execFrameRead (dev : Byte) (addr : U16) (responseLength : Nat) (s : State) : Host.Outcome State Fault Refusal :=
  .next (sendReadFrame (readFrame dev addr) responseLength s)

end Sys2Proof.Machine
end

