-- ==== Sys2Proof/Machine/Dispatch.lean ====
section
/-! DEFINITION. One instruction's effect: one arm per row of spec/opcode_table.json, each one call of its meaning. -/

namespace Sys2Proof.Machine

def exec (i : Instr) (s : State) : Host.Outcome State Fault Refusal :=
  match i with
  | .buildWrite dev addr vals => Sys2Proof.Machine.execBuildWrite dev addr vals s
  | .buildRead dev addr => Sys2Proof.Machine.execBuildRead dev addr s
  | .parse raw => Sys2Proof.Machine.execParse raw s
  | .checksum csIn => Sys2Proof.Machine.execChecksum csIn s
  | .frameWrite dev addr vals => Sys2Proof.Machine.execFrameWrite dev addr vals s
  | .frameRead dev addr responseLength => Sys2Proof.Machine.execFrameRead dev addr responseLength s

end Sys2Proof.Machine
end

