-- ==== Sys2Proof/Machine/HostProtocol.lean ====
section
/-! DEFINITION. The register table (R158) and the two pseudo-operations (R77, R153, R155), one action on the block a step,
so that the platform may reset the block between any two (R190). -/

namespace Sys2Proof.Machine

/-- The fixed catalog (R158, R159). -/
def catalog : List (String × RegisterName) :=
  [("angleSet", .angleSet), ("forceSet", .forceSet), ("speedSet", .speedSet), ("angleAct", .angleAct),
   ("forceAct", .forceAct)]

/-- The linear scan over the catalog (R158). -/
def scanCatalog (name : String) : Lookup :=
  match catalog.find? fun entry => decide (entry.1 = name) with
  | some entry => .address (Config.registerAddress entry.2)
  | none => .notFound

/-- `addressOf(name)` (R158). The empty string, which its input excludes, has neither an address nor NotFound for an
answer (U7). -/
def addressOf (name : String) : Except Refusal Lookup :=
  if name = "" then .error .emptyRegisterName else .ok (scanCatalog name)

/-- WRITE_REGISTER up to its BUILD_WRITE (R153). -/
def writeRegister (dev : Byte) (name : String) (vals : List Int) (s : State) : Host.Outcome State Fault Refusal :=
  match addressOf name with
  | .error refusal => .refused refusal
  | .ok .notFound => .next (s.returnOutcome .configurationError)
  | .ok (.address addr) => .next ((buildWrite dev addr vals s).goTo .writeBuilt)

/-- READ_REGISTER up to its BUILD_READ (R155). -/
def readRegister (dev : Byte) (name : String) (responseLength : Nat) (s : State) : Host.Outcome State Fault Refusal :=
  match addressOf name with
  | .error refusal => .refused refusal
  | .ok .notFound => .next (s.returnOutcome .configurationError)
  | .ok (.address addr) => .next ((buildRead dev addr s).goTo (.readBuilt responseLength))

/-- WRITE_REGISTER after its BUILD_WRITE (R153): the test of ERR (R196), the read-out of the frame, its transaction. -/
def finishWrite (s : State) : Host.Outcome State Fault Refusal :=
  if s.err = errTooManyValues then .next ((s.goTo .idle).returnOutcome .validationError)
  else
    match readFrameBytes s with
    | .error fault => .fault fault
    | .ok f => .next (sendWriteFrame f (s.goTo .idle))

/-- READ_REGISTER after its BUILD_READ (R155): the read-out of the frame, its transaction. -/
def finishRead (responseLength : Nat) (s : State) : Host.Outcome State Fault Refusal :=
  match readFrameBytes s with
  | .error fault => .fault fault
  | .ok f => .next (sendReadFrame f responseLength (s.goTo .idle))

/-- The read-out of the parsed values, and their return (R155). -/
def returnValues (s : State) : Host.Outcome State Fault Refusal :=
  match readValues s with
  | .error fault => .fault fault
  | .ok vals => .next ((s.goTo .idle).returnOutcome (.ok (some vals)))

end Sys2Proof.Machine
end

