-- ==== Sys2Proof/Machine/Events.lean ====
section
/-! DEFINITION. What each event of the host's sequence does, how a host operation goes on, and what happens in a step
(R24, R52, R190). -/

namespace Sys2Proof.Machine

/-- One event: a request is decoded and executed; a host operation begins; a latch read returns its value and changes
nothing else (R46), or faults (R30). -/
def runEvent (e : HostEvent) (s : State) : Host.Outcome State Fault Refusal :=
  match e with
  | .request r =>
    match decode r with
    | .ok i => exec i s
    | .error reason => .refused (.notAFrame reason)
  | .writeRegister dev name vals => writeRegister dev name vals s
  | .readRegister dev name responseLength => readRegister dev name responseLength s
  | .readLatch f =>
    match readLatch f s with
    | .ok v => .next { s with readOut := some v }
    | .error fault => .fault fault

/-- The host's next action: a running host operation goes on before any other event (R157); a blocked one does nothing
(R160); with none running the next event of the sequence happens, or the block is idle (R184). -/
def hostAction (s : State) : Host.Outcome State Fault Refusal :=
  match s.task with
  | .writeBuilt => finishWrite s
  | .readBuilt responseLength => finishRead responseLength s
  | .received response => .next ((parse response s).goTo .parsed)
  | .parsed => returnValues s
  | .blocked => .next s
  | .idle =>
    match s.pending with
    | [] => .next s
    | e :: rest => runEvent e { s with pending := rest }

/-- What happens next: the platform's reset where the reset line says so (R190), else the host's action. -/
def nextAction (s : State) : Host.Outcome State Fault Refusal :=
  match s.resetLine with
  | true :: later => .next { s.resetBlock with resetLine := later }
  | _ => hostAction { s with resetLine := s.resetLine.tail }

/-- The next request placed at the head of the host's sequence, the host free to issue it and no reset before it. -/
def State.issue (s : State) (r : Request) : State :=
  { s with pending := .request r :: s.pending, task := .idle, resetLine := false :: s.resetLine }

end Sys2Proof.Machine
end

