-- ==== Sys2Proof/Machine/Step.lean ====
section
/-! DEFINITION. One step of the machine, and where it takes its next instruction from. -/

namespace Sys2Proof.Machine

/-- One step: a state with a reserved ERR code is refused (U4); otherwise the next action happens. -/
def step (s : State) : Host.Outcome State Fault Refusal :=
  if s.errLegal then nextAction s else .refused .reservedErrCode

/-- The instruction of a word of spec/opcode_table.json as the host's very next request (log 1, log 7). -/
def State.withFetchWord (s : State) (nbits w : Nat) : State := s.issue (Request.ofTableWord nbits w)

end Sys2Proof.Machine
end

