-- ==== Sys2Proof/Safety.lean ====
section
/-! DEFINITION. The terms that statements about the machine are made in: frame layouts by offset, the invariants of R35,
and what a run may hand to the transport. -/

namespace Sys2Proof.Machine

/-- `f` is the write frame of R64 with the 16-bit values `us`, offset by offset. -/
def IsWriteFrame (dev : Byte) (addr : U16) (us : List U16) (f : List Byte) : Prop :=
  f.length = 8 + 2 * us.length ∧
  f[0]? = some 0xEB ∧ f[1]? = some 0x90 ∧ f[2]? = some dev ∧ f[3]? = some (BitVec.ofNat 8 (2 * us.length + 3)) ∧
  f[4]? = some 0x12 ∧ f[5]? = some (BitVec.ofNat 8 (addr.toNat % 256)) ∧
  f[6]? = some (BitVec.ofNat 8 (addr.toNat / 256)) ∧
  (∀ k u, us[k]? = some u →
    f[7 + 2 * k]? = some (BitVec.ofNat 8 (u.toNat % 256)) ∧ f[8 + 2 * k]? = some (BitVec.ofNat 8 (u.toNat / 256))) ∧
  f[7 + 2 * us.length]? =
    some (BitVec.ofNat 8 ((((f.drop 2).take (5 + 2 * us.length)).map BitVec.toNat).sum % 256))

/-- `f` is the read frame of R66, offset by offset. -/
def IsReadFrame (dev : Byte) (addr : U16) (f : List Byte) : Prop :=
  f.length = 9 ∧
  f[0]? = some 0xEB ∧ f[1]? = some 0x90 ∧ f[2]? = some dev ∧ f[3]? = some 0x04 ∧ f[4]? = some 0x11 ∧
  f[5]? = some (BitVec.ofNat 8 (addr.toNat % 256)) ∧ f[6]? = some (BitVec.ofNat 8 (addr.toNat / 256)) ∧
  f[7]? = some 0x0C ∧ f[8]? = some (BitVec.ofNat 8 ((((f.drop 2).take 6).map BitVec.toNat).sum % 256))

/-- `f` is one of the request frames of R64 and R66. -/
def IsRequestFrame (f : List Byte) : Prop :=
  (∃ dev addr us, us.length ≤ 6 ∧ IsWriteFrame dev addr us f) ∨ ∃ dev addr, IsReadFrame dev addr f

/-- What R35 says of a valid FRAME latch, on FRAME_LEN and FRAME_BYTES. -/
def FrameLatch.Inv (l : FrameLatch) : Prop :=
  l.valid = true →
    ((l.len.toNat = 9 ∧ l.bytes[4] = 0x11) ∨ (∃ n, n ≤ 6 ∧ l.len.toNat = 8 + 2 * n ∧ l.bytes[4] = 0x12)) ∧
    l.bytes[0] = 0xEB ∧ l.bytes[1] = 0x90 ∧
    l.bytes[l.len.toNat - 1]? =
      some (BitVec.ofNat 8 ((((l.bytes.toList.drop 2).take (l.len.toNat - 3)).map BitVec.toNat).sum % 256))

/-- What R35 says of a valid VALUES latch. -/
def ValuesLatch.Inv (l : ValuesLatch) : Prop :=
  l.valid = true → l.count.toNat ≤ 6 ∧ ∀ k v, k < l.count.toNat → l.slots[k]? = some v → v.toNat ≤ 6000

/-- R35 for both latches, and an ERR code that is not reserved (R25). -/
def State.Inv (s : State) : Prop := s.frame.Inv ∧ s.values.Inv ∧ (s.err = 0 ∨ s.err = 1)

/-- A valid FRAME latch holds a request frame, and every byte sequence handed to the transport is one (R109, R153,
R155). -/
def State.TrafficInv (s : State) : Prop :=
  (s.frame.valid = true → IsRequestFrame s.frame.contents) ∧
  ∀ f answer, TransportCall.write f answer ∈ s.traffic → IsRequestFrame f

/-- `t` differs from `s` in the block alone: the host's side and the transport are as before. -/
def State.SameOutside (s t : State) : Prop :=
  t.pending = s.pending ∧ t.readOut = s.readOut ∧ t.outcome = s.outcome ∧ t.task = s.task ∧ t.resetLine = s.resetLine ∧
  t.traffic = s.traffic ∧ t.writeAnswers = s.writeAnswers ∧ t.readAnswers = s.readAnswers ∧ t.draws = s.draws

/-- The block's latches and ERR are as before. -/
def State.SameBlock (s t : State) : Prop :=
  t.frame = s.frame ∧ t.values = s.values ∧ t.csum = s.csum ∧ t.err = s.err

/-- The platform applies no reset in the next `k` steps (R190). -/
def State.NoReset (s : State) (k : Nat) : Prop := ∀ b ∈ s.resetLine.take k, b = false

/-- The host issues its next event in this step: the ERR code is not reserved, no host operation is running, and the
platform does not reset the block in it. -/
def State.Ready (s : State) : Prop := s.errLegal = true ∧ s.task = .idle ∧ s.NoReset 1

/-- What the host finds when its events have been moved past one and one step has gone by on the reset line. -/
def State.withRest (s : State) (rest : List HostEvent) : State :=
  { s with pending := rest, resetLine := s.resetLine.tail }

end Sys2Proof.Machine
end

