-- ==== Sys2Proof/Certificates/Slice0/Obligations.lean ====
section
/-! DEFINITION. The statements for the provers. Each docstring names the rule of spec/ it formalises, or says that it is
derived or rests on the model's own choice. -/

open Sys2Proof Sys2Proof.Machine

/-! ### Reset -/

/-- R32 (the spec's decision D22): after reset STATUS reads 0x00 and every other field is unreadable. -/
def Obligations.ResetReadsStatusZeroAndNothingElse : Prop :=
  State.reset.frame.valid = false ∧ State.reset.values.valid = false ∧ State.reset.csum.valid = false ∧
  State.reset.err = 0 ∧ readLatch .status State.reset = .ok (.status 0x00) ∧
  ∀ f, f ≠ .status → readLatch f State.reset = .error (.readInvalidLatch f)

/-- R191: the platform's reset clears the three valid bits and ERR and has no other effect, whatever the host is doing
(R190); the reset line that says when is the model's own (log 14). -/
def Obligations.PlatformResetClearsValidBitsAndErrOnly : Prop :=
  ∀ (s : State) (later : List Bool), s.errLegal = true → s.resetLine = true :: later →
    ∃ t, step s = .next t ∧ statusByte t = 0x00 ∧
      (∀ f, f ≠ .status → readLatch f t = .error (.readInvalidLatch f)) ∧
      t.resetLine = later ∧ t.pending = s.pending ∧ t.task = s.task ∧ t.position = s.position ∧
      t.readOut = s.readOut ∧ t.outcome = s.outcome ∧ t.traffic = s.traffic ∧ t.writeAnswers = s.writeAnswers ∧
      t.readAnswers = s.readAnswers ∧ t.draws = s.draws

/-- R190 inside a host operation (derived from it with R30, R153 and R155): a reset between a build and the host's
read-out of the frame makes that read-out fault, with nothing sent; a reset between the response and PARSE changes
nothing of the parsed values; a reset between PARSE and the read-out of the values makes that read-out fault. The
points of a host operation at which a step, and so a reset, can fall are the model's choice, the read-out's fault is
its deduction, and so is the field that it names, FRAME_LEN for READ_REGISTER too, whose R155 reads FRAME_BYTES[0 ..
8] (all log 14). -/
def Obligations.ResetInsideAHostOperation : Prop :=
  ∀ (s : State) (later : List Bool), s.errLegal = true → s.resetLine = true :: later → later.head? ≠ some true →
    (s.task = .writeBuilt ∨ (∃ n, s.task = .readBuilt n) →
      ∃ t, step s = .next t ∧ t.traffic = s.traffic ∧ step t = .fault (.readInvalidLatch .frameLen)) ∧
    (∀ r, s.task = .received r →
      ∃ t u p, step s = .next t ∧ step t = .next u ∧ u.task = .parsed ∧ exec (.parse r) s = .next p ∧
        u.values.valid = true ∧ u.values.contents = p.values.contents) ∧
    (s.task = .parsed → ∃ t, step s = .next t ∧ step t = .fault (.readInvalidLatch .valueCount))

/-- The invariants of R35 hold at reset (R35 is marked as derived by the spec itself), and so does the traffic
invariant; State.reset's traffic is the model's choice (log 2). -/
def Obligations.LatchInvariantHoldsAtReset : Prop := State.reset.Inv ∧ State.reset.TrafficInv

/-! ### Encodings -/

/-- R60: the four OP codes, each operation taking the operands of its own ports and no other. -/
def Obligations.OpSelectNamesOperationAndItsPorts : Prop :=
  ∀ p : Ports,
    (p.op = 0b00 → decode (.port p) = .ok (.buildWrite p.devId p.addr p.vals)) ∧
    (p.op = 0b01 → decode (.port p) = .ok (.buildRead p.devId p.addr)) ∧
    (p.op = 0b10 → decode (.port p) = .ok (.parse p.raw)) ∧
    (p.op = 0b11 → decode (.port p) = .ok (.checksum p.csIn))

/-- Decoding the encoding of a well-formed instruction gives the instruction back, with every operand at every value. -/
def Obligations.DecodeOfEncodeIsTheInstruction : Prop := ∀ i : Instr, i.wf = true → decode (encode i) = .ok i

/-- Every byte sequence accepted as a request frame is a frame of R64 or R66 byte for byte, for the operands decoded from
it, and the decoded instruction is well-formed. -/
def Obligations.AcceptedBytesAreTheDecodedFrame : Prop :=
  ∀ (bytes : List Byte) (n : Nat) (i : Instr), decode (.frame bytes n) = .ok i →
    i.wf = true ∧
    ((∃ dev addr us, i = .frameWrite dev addr us ∧ us.length ≤ 6 ∧ IsWriteFrame dev addr us bytes) ∨
     (∃ dev addr, i = .frameRead dev addr n ∧ IsReadFrame dev addr bytes))

/-- R72 in the model: a command byte other than 0x12 and 0x11 is refused by name wherever the sync bytes stand before it
(the refusal is the model's choice, log 8). -/
def Obligations.OtherCommandBytesAreRefused : Prop :=
  ∀ (dev len cmd : Byte) (rest : List Byte) (n : Nat), rest.length ≥ 3 → cmd ≠ 0x12 → cmd ≠ 0x11 →
    decode (.frame (0xEB :: 0x90 :: dev :: len :: cmd :: rest) n) = .error .unknownCommand

/-- A few words written out from the spec: the OP codes and V10's and V3's frames. -/
def Obligations.SpecWordsDecodeToTheirInstructions : Prop :=
  decodeTableWord 8 0x00 = some (.buildWrite 0 0 []) ∧ decodeTableWord 8 0x01 = some (.buildRead 0 0) ∧
  decodeTableWord 8 0x02 = some (.parse []) ∧ decodeTableWord 8 0x03 = some (.checksum []) ∧
  decodeTableWord 8 0x12 = some (.frameWrite 0 0 []) ∧ decodeTableWord 8 0x11 = some (.frameRead 0 0 0) ∧
  decode (.frame [0xEB, 0x90, 0x01, 0x04, 0x11, 0xF2, 0x05, 0x0C, 0x19] 20) = .ok (.frameRead 1 1522 20) ∧
  decode (.frame [0xEB, 0x90, 0x02, 0x05, 0x12, 0x34, 0x12, 0x70, 0x17, 0xE6] 0) = .ok (.frameWrite 2 0x1234 [6000])

/-- A step runs the decoded instruction: the step is exec of it at the state whose sequence has moved past the request
(and whose reset line has moved on by this step). The sequence and the reset line are the model's own (log 1 and 14). -/
def Obligations.StepRunsTheDecodedInstruction : Prop :=
  ∀ (s : State) (r : Request) (rest : List HostEvent) (i : Instr), s.Ready → s.pending = .request r :: rest →
    decode r = .ok i → step s = exec i (s.withRest rest)

/-- A word of the opcode table placed with withFetchWord is the instruction that the very next step runs (the model's
choice of how a program is loaded, log 1 and 7). -/
def Obligations.FetchWordIsTheNextInstruction : Prop :=
  ∀ (s : State) (nbits w : Nat) (i : Instr), s.errLegal = true → decodeTableWord nbits w = some i →
    step (s.withFetchWord nbits w) = exec i { s with task := .idle }

/-! ### BUILD_WRITE -/

/-- R64, R65: with at most six values BUILD_WRITE leaves in the FRAME latch the frame of R64, each value reduced to its
low 16 bits, and writes ERR <- NONE and nothing else (the position is PositionCountsAcceptedOperations's). -/
def Obligations.BuildWriteBuildsTheWriteFrame : Prop :=
  ∀ (dev : Byte) (addr : U16) (vals : List Int) (s : State), vals.length ≤ 6 →
    ∃ t, exec (.buildWrite dev addr vals) s = .next t ∧ t.frame.valid = true ∧
      t.frame.len.toNat = 8 + 2 * vals.length ∧
      IsWriteFrame dev addr (vals.map fun v => BitVec.ofNat 16 (v % 65536).toNat) t.frame.contents ∧
      t.err = 0 ∧ t.values = s.values ∧ t.csum = s.csum ∧ s.SameOutside t

/-- R102: with more than six values, ERR <- 1 and FRAME_VALID <- 0 and nothing else but the host's position, and the
state after does not depend on DEV_ID, ADDR or the values. -/
def Obligations.BuildWriteRefusesMoreThanSixValues : Prop :=
  ∀ s : State, ∃ n : Nat, ∀ (dev : Byte) (addr : U16) (vals : List Int), 6 < vals.length →
    exec (.buildWrite dev addr vals) s =
      .next { s with err := 1, frame := { s.frame with valid := false }, position := n }

/-- R104, word for word on FRAME_LEN and FRAME_BYTES. -/
def Obligations.BuildWriteChecksumLaw : Prop :=
  ∀ (dev : Byte) (addr : U16) (vals : List Int) (s : State), vals.length ≤ 6 →
    ∃ t, exec (.buildWrite dev addr vals) s = .next t ∧ t.frame.len.toNat = 8 + 2 * vals.length ∧
      t.frame.bytes[t.frame.len.toNat - 1]? =
        some (checksum8 ((t.frame.bytes.toList.drop 2).take (t.frame.len.toNat - 3)))

/-- R103 on truncation: two value lists of the same length build the same frame contents exactly when they agree modulo
65536, element by element. -/
def Obligations.BuildWriteSeesValuesModulo65536 : Prop :=
  ∀ (dev : Byte) (addr : U16) (vals vals' : List Int) (s : State), vals.length ≤ 6 → vals'.length = vals.length →
    ∃ t t', exec (.buildWrite dev addr vals) s = .next t ∧ exec (.buildWrite dev addr vals') s = .next t' ∧
      (t.frame.contents = t'.frame.contents ↔ vals.map (· % 65536) = vals'.map (· % 65536))

/-! ### BUILD_READ -/

/-- R66, R105: BUILD_READ leaves the nine bytes of R66 in the FRAME latch for every DEV_ID and ADDR. -/
def Obligations.BuildReadBuildsTheReadFrame : Prop :=
  ∀ (dev : Byte) (addr : U16) (s : State),
    ∃ t, exec (.buildRead dev addr) s = .next t ∧ t.frame.valid = true ∧ t.frame.len.toNat = 9 ∧
      IsReadFrame dev addr t.frame.contents ∧
      t.err = 0 ∧ t.values = s.values ∧ t.csum = s.csum ∧ s.SameOutside t

/-- The frame that a build leaves in the latch is the one the wire encoding gives for the same operands (derived from
R64, R66 and R101, R105; it says that the encoder of the two frame rows and the two builds agree). -/
def Obligations.BuiltFrameDecodesToItsFrameInstruction : Prop :=
  (∀ (dev : Byte) (addr : U16) (vals : List Int) (s : State) (n : Nat), vals.length ≤ 6 →
    ∃ t, exec (.buildWrite dev addr vals) s = .next t ∧
      decode (.frame t.frame.contents n) =
        .ok (.frameWrite dev addr (vals.map fun v => BitVec.ofNat 16 (v % 65536).toNat))) ∧
  (∀ (dev : Byte) (addr : U16) (s : State) (n : Nat),
    ∃ t, exec (.buildRead dev addr) s = .next t ∧
      decode (.frame t.frame.contents n) = .ok (.frameRead dev addr n))

/-- R69: the length of a request frame is its byte at offset 3 plus 5, for every byte sequence that the decoder accepts
and for every frame that a build leaves in the latch (the spec marks R69 as derived). -/
def Obligations.FrameLengthIsItsDataLengthPlusFive : Prop :=
  (∀ (bytes : List Byte) (n : Nat) (i : Instr), decode (.frame bytes n) = .ok i →
    ∃ b, bytes[3]? = some b ∧ bytes.length = b.toNat + 5) ∧
  (∀ (dev : Byte) (addr : U16) (vals : List Int) (s : State), vals.length ≤ 6 →
    ∃ t b, exec (.buildWrite dev addr vals) s = .next t ∧ t.frame.contents[3]? = some b ∧
      t.frame.len.toNat = b.toNat + 5 ∧ t.frame.contents.length = b.toNat + 5) ∧
  (∀ (dev : Byte) (addr : U16) (s : State),
    ∃ t b, exec (.buildRead dev addr) s = .next t ∧ t.frame.contents[3]? = some b ∧
      t.frame.len.toNat = b.toNat + 5 ∧ t.frame.contents.length = b.toNat + 5)

/-! ### CHECKSUM -/

/-- R107: CHECKSUM writes the sum of its operand modulo 256 to CSUM_VALUE, CSUM_VALID <- 1 and ERR <- NONE, and keeps
everything else. -/
def Obligations.ChecksumWritesTheSumModulo256 : Prop :=
  ∀ (cs : List Byte) (s : State),
    ∃ t, exec (.checksum cs) s = .next t ∧ t.csum.valid = true ∧ t.csum.value.toNat = (cs.map BitVec.toNat).sum % 256 ∧
      t.err = 0 ∧ t.frame = s.frame ∧ t.values = s.values ∧ s.SameOutside t

/-- R100: truncating at each addition gives the same result as truncating once at the end. -/
def Obligations.ChecksumTruncatesAtEachAddition : Prop :=
  ∀ (cs : List Byte) (s : State), ∃ t, exec (.checksum cs) s = .next t ∧ t.csum.value = cs.foldl (· + ·) 0

/-- R108 (derived by the spec): CHECKSUM of a valid frame without its sync bytes and its last byte gives the last byte,
after every build, from every state. -/
def Obligations.ChecksumOfABuiltFrameIsItsLastByte : Prop :=
  ∀ (s : State) (dev : Byte) (addr : U16) (vals : List Int), vals.length ≤ 6 →
    (∃ t u, exec (.buildWrite dev addr vals) s = .next t ∧
      exec (.checksum (t.frame.contents.drop 2).dropLast) t = .next u ∧
      t.frame.contents.getLast? = some u.csum.value) ∧
    (∃ t u, exec (.buildRead dev addr) s = .next t ∧
      exec (.checksum (t.frame.contents.drop 2).dropLast) t = .next u ∧
      t.frame.contents.getLast? = some u.csum.value)

/-! ### PARSE -/

/-- R130 to R133: VALUE_COUNT is the function of the length that R133 gives, and value k comes from the pair at offsets
7 + 2k and 8 + 2k, replaced by 0 when it is above 6000; ERR <- NONE, and everything else is kept. -/
def Obligations.ParseExtractsTheClampedPairs : Prop :=
  ∀ (raw : List Byte) (s : State),
    ∃ t, exec (.parse raw) s = .next t ∧ t.values.valid = true ∧
      t.values.count.toNat = min 6 ((raw.length - 7) / 2) ∧
      (∀ k lo hi, k < 6 → raw[7 + 2 * k]? = some lo → raw[8 + 2 * k]? = some hi →
        ∃ v, t.values.contents[k]? = some v ∧
          v.toNat = if 6000 < lo.toNat + 256 * hi.toNat then 0 else lo.toNat + 256 * hi.toNat) ∧
      t.err = 0 ∧ t.frame = s.frame ∧ t.csum = s.csum ∧ s.SameOutside t

/-- R135: whatever the response, PARSE writes ERR <- NONE and VALUES_VALID <- 1, with the count of R133. -/
def Obligations.ParseNeverRaisesAnError : Prop :=
  ∀ (raw : List Byte) (s : State),
    ∃ t, exec (.parse raw) s = .next t ∧ t.err = 0 ∧ t.values.valid = true ∧
      t.values.count.toNat = min 6 ((raw.length - 7) / 2)

/-- R136: round trip of six values of at most 6000; a value above 6000 yields 0; a response that does not reach offset
18 yields fewer values and no error. -/
def Obligations.ParseLaws : Prop :=
  (∀ (header trailer : List Byte) (us : List U16) (s : State), header.length = 7 → us.length = 6 →
    (∀ u ∈ us, u.toNat ≤ 6000) →
    ∃ t, exec (.parse (header ++ us.flatMap (fun u : U16 => [u.setWidth 8, (u >>> 8).setWidth 8]) ++ trailer)) s = .next t ∧
      t.values.contents = us) ∧
  (∀ (raw : List Byte) (k : Nat) (lo hi : Byte) (s : State), k < 6 → raw[7 + 2 * k]? = some lo →
    raw[8 + 2 * k]? = some hi → 6000 < lo.toNat + 256 * hi.toNat →
    ∃ t, exec (.parse raw) s = .next t ∧ t.values.contents[k]? = some 0) ∧
  (∀ (raw : List Byte) (s : State), raw.length ≤ 18 →
    ∃ t, exec (.parse raw) s = .next t ∧ t.values.contents.length = (raw.length - 7) / 2 ∧
      t.values.contents.length < 6 ∧ t.err = 0)

/-- R134: bytes outside offsets 7 to 18 have no effect: two responses of at least 19 bytes, or of the same length, that
agree at offsets 7 to 18 parse alike. -/
def Obligations.ParseIgnoresBytesOutside7To18 : Prop :=
  ∀ (raw raw' : List Byte) (s : State),
    (raw.length = raw'.length ∨ (19 ≤ raw.length ∧ 19 ≤ raw'.length)) →
    (∀ j, 7 ≤ j → j ≤ 18 → raw[j]? = raw'[j]?) →
    ∃ t, exec (.parse raw) s = .next t ∧ exec (.parse raw') s = .next t

/-- R27, R201 (marked as derived by the spec itself): nothing tells a clamped value from a 0 on the wire. Responses of
the same length whose pairs agree wherever either is at most 6000 and not 0 leave the same machine. -/
def Obligations.ClampedValueAndZeroCannotBeToldApart : Prop :=
  ∀ (raw raw' : List Byte) (s : State), raw.length = raw'.length →
    (∀ k lo hi lo' hi', k < 6 → raw[7 + 2 * k]? = some lo → raw[8 + 2 * k]? = some hi →
      raw'[7 + 2 * k]? = some lo' → raw'[8 + 2 * k]? = some hi' →
      (lo = lo' ∧ hi = hi') ∨
      ((lo.toNat + 256 * hi.toNat = 0 ∨ 6000 < lo.toNat + 256 * hi.toNat) ∧
        (lo'.toNat + 256 * hi'.toNat = 0 ∨ 6000 < lo'.toNat + 256 * hi'.toNat))) →
    ∃ t, exec (.parse raw) s = .next t ∧ exec (.parse raw') s = .next t

/-! ### The four operations together -/

/-- R29: what each operation writes; everything not listed is kept, but for the host's position. -/
def Obligations.EachOperationWritesItsOwnLatch : Prop :=
  ∀ (s : State) (dev : Byte) (addr : U16) (vals : List Int) (bs : List Byte),
    (vals.length ≤ 6 → ∃ l n, exec (.buildWrite dev addr vals) s =
      .next { s with frame := l, err := 0, position := n } ∧ l.valid = true) ∧
    (6 < vals.length → ∃ n, exec (.buildWrite dev addr vals) s =
      .next { s with frame := { s.frame with valid := false }, err := 1, position := n }) ∧
    (∃ l n, exec (.buildRead dev addr) s = .next { s with frame := l, err := 0, position := n } ∧ l.valid = true) ∧
    (∃ l n, exec (.parse bs) s = .next { s with values := l, err := 0, position := n } ∧ l.valid = true) ∧
    (∃ l n, exec (.checksum bs) s = .next { s with csum := l, err := 0, position := n } ∧ l.valid = true)

/-- R20, R31: the results of an operation depend on its operands alone. From any two states, what the host can read of
the latch that the operation writes, and ERR, come out the same. -/
def Obligations.ResultsDependOnOperandsAlone : Prop :=
  ∀ (s s' : State) (dev : Byte) (addr : U16) (vals : List Int) (bs : List Byte),
    (∃ t t', exec (.buildWrite dev addr vals) s = .next t ∧ exec (.buildWrite dev addr vals) s' = .next t' ∧
      readFrameBytes t = readFrameBytes t' ∧ t.err = t'.err ∧
      ∀ i, readLatch (.frameByte i) t = readLatch (.frameByte i) t') ∧
    (∃ t t', exec (.buildRead dev addr) s = .next t ∧ exec (.buildRead dev addr) s' = .next t' ∧
      readFrameBytes t = readFrameBytes t' ∧ t.err = t'.err) ∧
    (∃ t t', exec (.parse bs) s = .next t ∧ exec (.parse bs) s' = .next t' ∧
      t.values.contents = t'.values.contents ∧ t.values.valid = t'.values.valid ∧ t.err = t'.err) ∧
    (∃ t t', exec (.checksum bs) s = .next t ∧ exec (.checksum bs) s' = .next t' ∧ t.csum = t'.csum ∧ t.err = t'.err)

/-- R46: an operation repeated with the same operands writes the same latch contents and the same ERR again (the bits beyond a frame's length or a value count too, which the model keeps: log 3). -/
def Obligations.OperationsAreIdempotent : Prop :=
  ∀ (s : State) (p : Ports),
    ∃ t u, exec (decodePorts p) s = .next t ∧ exec (decodePorts p) t = .next u ∧ t.SameBlock u

/-- R26: the bits of STATUS, in every state. -/
def Obligations.StatusShowsValidBitsAndErr : Prop :=
  ∀ s : State, ∃ b, readLatch .status s = .ok (.status b) ∧
    b.getLsbD 0 = s.frame.valid ∧ b.getLsbD 1 = s.values.valid ∧ b.getLsbD 2 = s.csum.valid ∧
    b.extractLsb' 3 2 = s.err ∧ b.extractLsb' 5 3 = 0

/-- R30: which reads fault with ReadInvalidLatch, for the fields that exist; STATUS always reads. -/
def Obligations.ReadFaultsExactlyWhereNoValueIsHeld : Prop :=
  ∀ s : State,
    (∃ v, readLatch .status s = .ok v) ∧
    (readLatch .frameLen s = .error (.readInvalidLatch .frameLen) ↔ s.frame.valid = false) ∧
    (∀ i, i < 20 → (readLatch (.frameByte i) s = .error (.readInvalidLatch (.frameByte i)) ↔
      (s.frame.valid = false ∨ s.frame.len.toNat ≤ i))) ∧
    (readLatch .valueCount s = .error (.readInvalidLatch .valueCount) ↔ s.values.valid = false) ∧
    (∀ k, k < 6 → (readLatch (.value k) s = .error (.readInvalidLatch (.value k)) ↔
      (s.values.valid = false ∨ s.values.count.toNat ≤ k))) ∧
    (readLatch .csumValue s = .error (.readInvalidLatch .csumValue) ↔ s.csum.valid = false)

/-- R21 to R23: a read of a field that holds a value returns that value. -/
def Obligations.ReadReturnsTheFieldHeld : Prop :=
  ∀ s : State,
    (s.frame.valid = true → readLatch .frameLen s = .ok (.frameLen s.frame.len)) ∧
    (∀ i b, s.frame.valid = true → i < s.frame.len.toNat → s.frame.bytes[i]? = some b →
      readLatch (.frameByte i) s = .ok (.frameByte b)) ∧
    (s.values.valid = true → readLatch .valueCount s = .ok (.valueCount s.values.count)) ∧
    (∀ k v, s.values.valid = true → k < s.values.count.toNat → s.values.slots[k]? = some v →
      readLatch (.value k) s = .ok (.value v)) ∧
    (s.csum.valid = true → readLatch .csumValue s = .ok (.csumValue s.csum.value))

/-- R46 for the host's read as a step: it returns the value or faults with ReadInvalidLatch, and it changes nothing of
the block, the transport or the position (what the host got is the model's own field, log 13). -/
def Obligations.HostReadStepHasNoSideEffect : Prop :=
  ∀ (s : State) (f : LatchField) (rest : List HostEvent), s.Ready → s.pending = .readLatch f :: rest →
    (∀ v, readLatch f s = .ok v → step s = .next { s.withRest rest with readOut := some v }) ∧
    (∀ e, readLatch f s = .error e → e = .readInvalidLatch f ∧ step s = .fault e)

/-- R24: each of the four operations moves the host's position on by exactly one (a refused BUILD_WRITE too, log 12), the
PARSE of READ_REGISTER's response among them (a step of its own, log 14), and a request frame handed to the transport
moves it by none (log 6). -/
def Obligations.PositionCountsAcceptedOperations : Prop :=
  (∀ (s : State) (p : Ports), ∃ t, exec (decodePorts p) s = .next t ∧ t.position = s.position + 1) ∧
  (∀ (s : State) (r : List Byte), s.errLegal = true → s.task = .received r → s.NoReset 1 →
    ∃ t, step s = .next t ∧ t.position = s.position + 1) ∧
  (∀ (s : State) (dev : Byte) (addr : U16) (us : List U16),
    ∃ t, exec (.frameWrite dev addr us) s = .next t ∧ t.position = s.position) ∧
  (∀ (s : State) (dev : Byte) (addr : U16) (n : Nat),
    ∃ t, exec (.frameRead dev addr n) s = .next t ∧ t.position = s.position)

/-! ### Request frames on the wire (the model's choice, log 6) -/

/-- FRAME_WRITE completes in every state: the frame of R64 is handed over in one call; a write failure is returned with
no read; otherwise nine bytes are drained, and a drain failure is OkDrainFailed (R150, R153, R154). No latch, ERR or
position changes. -/
def Obligations.FrameWriteCarriesTheFrameAndDrainsNineBytes : Prop :=
  ∀ (dev : Byte) (addr : U16) (us : List U16) (s : State), us.length ≤ 6 →
    ∃ t f, exec (.frameWrite dev addr us) s = .next t ∧ IsWriteFrame dev addr us f ∧ s.SameBlock t ∧
      t.position = s.position ∧ t.pending = s.pending ∧ t.readOut = s.readOut ∧
      match s.nextWriteAnswer, State.nextReadAnswer { s with draws := s.draws + 1 } 9 with
      | .transportError, _ =>
        t.outcome = some .transportError ∧ t.task = s.task ∧ t.traffic = s.traffic ++ [.write f .transportError]
      | .success, .bytes r =>
        t.outcome = some (.ok none) ∧ t.task = s.task ∧ r.length = 9 ∧
        t.traffic = s.traffic ++ [.write f .success, .read 9 (.bytes r)]
      | .success, .transportError =>
        t.outcome = some .okDrainFailed ∧ t.task = s.task ∧
        t.traffic = s.traffic ++ [.write f .success, .read 9 .transportError]
      | .success, .never =>
        t.outcome = s.outcome ∧ t.task = .blocked ∧ t.traffic = s.traffic ++ [.write f .success, .read 9 .never]

/-- FRAME_READ completes in every state: the frame of R66 is handed over in one call; a failure of the write or of the
response read is returned; otherwise the response, of exactly the length asked for, is the host's to PARSE (R150, R151,
R155). No latch, ERR or position changes. -/
def Obligations.FrameReadCarriesTheFrameAndReadsTheResponse : Prop :=
  ∀ (dev : Byte) (addr : U16) (n : Nat) (s : State),
    ∃ t f, exec (.frameRead dev addr n) s = .next t ∧ IsReadFrame dev addr f ∧ s.SameBlock t ∧
      t.position = s.position ∧ t.pending = s.pending ∧ t.readOut = s.readOut ∧
      match s.nextWriteAnswer, State.nextReadAnswer { s with draws := s.draws + 1 } n with
      | .transportError, _ =>
        t.outcome = some .transportError ∧ t.task = s.task ∧ t.traffic = s.traffic ++ [.write f .transportError]
      | .success, .bytes r =>
        t.outcome = s.outcome ∧ t.task = .received r ∧ r.length = n ∧
        t.traffic = s.traffic ++ [.write f .success, .read n (.bytes r)]
      | .success, .transportError =>
        t.outcome = some .transportError ∧ t.task = s.task ∧
        t.traffic = s.traffic ++ [.write f .success, .read n .transportError]
      | .success, .never =>
        t.outcome = s.outcome ∧ t.task = .blocked ∧ t.traffic = s.traffic ++ [.write f .success, .read n .never]

/-- R155 from the response on: PARSE of it, then the read-out of the values that PARSE extracted, with no transport
call. That PARSE is the next step and the read-out the step after it is the model's choice (log 14, and log 6 for a
FRAME_READ). -/
def Obligations.ResponseIsParsedAndItsValuesReturned : Prop :=
  ∀ (s : State) (r : List Byte), s.errLegal = true → s.task = .received r → s.NoReset 2 →
    ∃ p t u, exec (.parse r) s = .next p ∧ step s = .next t ∧ step t = .next u ∧
      p.SameBlock t ∧ t.task = .parsed ∧ t.position = p.position ∧ t.outcome = s.outcome ∧
      t.SameBlock u ∧ u.outcome = some (.ok (some p.values.contents)) ∧ u.task = .idle ∧ u.position = t.position ∧
      u.pending = s.pending ∧ u.traffic = s.traffic ∧ u.draws = s.draws

/-- A FRAME_WRITE term with more than six values has no frame: ValidationError, no I/O (the model's choice, log 9). -/
def Obligations.FrameWriteOfTooManyValuesDoesNoIO : Prop :=
  ∀ (dev : Byte) (addr : U16) (us : List U16) (s : State), 6 < us.length →
    exec (.frameWrite dev addr us) s = .next { s with outcome := some .validationError }

/-- R151: a successful read returns exactly the number of bytes asked for; the bytes a queued answer fixes come first. -/
def Obligations.SuccessfulReadHasExactlyTheLengthAsked : Prop :=
  ∀ (s : State) (n : Nat) (r : List Byte), s.nextReadAnswer n = .bytes r →
    r.length = n ∧ ∀ fixed rest i, s.readAnswers = .bytes fixed :: rest → i < n → i < fixed.length → r[i]? = fixed[i]?

/-! ### The host protocol -/

/-- R158: the five names of the catalog have an address each, and every other non-empty name is NotFound. -/
def Obligations.CatalogHasTheFiveNamesOnly : Prop :=
  addressOf "angleSet" = .ok (.address (Config.registerAddress .angleSet)) ∧
  addressOf "forceSet" = .ok (.address (Config.registerAddress .forceSet)) ∧
  addressOf "speedSet" = .ok (.address (Config.registerAddress .speedSet)) ∧
  addressOf "angleAct" = .ok (.address (Config.registerAddress .angleAct)) ∧
  addressOf "forceAct" = .ok (.address (Config.registerAddress .forceAct)) ∧
  ∀ name : String, name ≠ "" → name ∉ ["angleSet", "forceSet", "speedSet", "angleAct", "forceAct"] →
    addressOf name = .ok .notFound

/-- R177: an unknown name is a ConfigurationError of both host operations, before any block operation and any I/O, even
with more than six values. -/
def Obligations.UnknownNameIsConfigurationErrorWithoutIO : Prop :=
  ∀ (s : State) (dev : Byte) (name : String) (vals : List Int) (n : Nat) (rest : List HostEvent), s.Ready →
    name ≠ "" → name ∉ ["angleSet", "forceSet", "speedSet", "angleAct", "forceAct"] →
    (s.pending = .writeRegister dev name vals :: rest →
      step s = .next { s.withRest rest with outcome := some .configurationError }) ∧
    (s.pending = .readRegister dev name n :: rest →
      step s = .next { s.withRest rest with outcome := some .configurationError })

/-- R153, R196: WRITE_REGISTER with a known name and more than six values runs BUILD_WRITE, and the host then finds
ERR = TOO_MANY_VALUES and returns ValidationError; no I/O is done. That BUILD_WRITE is one step and the test of ERR
the next is the model's choice (log 14); the host's position is left open (log 12). -/
def Obligations.WriteRegisterOfTooManyValuesIsValidationErrorWithoutIO : Prop :=
  ∀ (s : State) (dev : Byte) (name : String) (vals : List Int) (rest : List HostEvent), s.Ready → s.NoReset 2 →
    name ∈ ["angleSet", "forceSet", "speedSet", "angleAct", "forceAct"] → 6 < vals.length →
    s.pending = .writeRegister dev name vals :: rest →
    ∃ t n, step s = .next t ∧ t.traffic = s.traffic ∧ t.draws = s.draws ∧
      step t = .next { s with pending := rest, resetLine := s.resetLine.drop 2, outcome := some .validationError,
                              err := 1, frame := { s.frame with valid := false }, position := n }

/-- R77, R153: WRITE_REGISTER with a known name and at most six values is BUILD_WRITE at the register's address and
then the transport transaction of the frame it built, whatever the transport answers. That the two take one step each
is the model's choice (log 14), and so is that this transaction is the meaning of FRAME_WRITE (log 6). -/
def Obligations.WriteRegisterIsBuildWriteThenFrameWrite : Prop :=
  ∀ (s : State) (dev : Byte) (name : String) (vals : List Int) (addr : U16) (rest : List HostEvent), s.Ready →
    s.NoReset 2 → addressOf name = .ok (.address addr) → vals.length ≤ 6 →
    s.pending = .writeRegister dev name vals :: rest →
    ∃ t, exec (.buildWrite dev addr vals) (s.withRest rest) = .next t ∧
      step s = .next { t with task := .writeBuilt } ∧
      step { t with task := .writeBuilt } =
        exec (.frameWrite dev addr (vals.map fun v => BitVec.ofNat 16 (v % 65536).toNat))
          { t with resetLine := s.resetLine.drop 2 }

/-- R77, R155: READ_REGISTER with a known name is BUILD_READ at the register's address and then the transport
transaction of the frame it built, whatever the transport answers. That the two take one step each is the model's
choice (log 14), and so is that this transaction is the meaning of FRAME_READ (log 6). -/
def Obligations.ReadRegisterIsBuildReadThenFrameRead : Prop :=
  ∀ (s : State) (dev : Byte) (name : String) (n : Nat) (addr : U16) (rest : List HostEvent), s.Ready → s.NoReset 2 →
    addressOf name = .ok (.address addr) → s.pending = .readRegister dev name n :: rest →
    ∃ t, exec (.buildRead dev addr) (s.withRest rest) = .next t ∧
      step s = .next { t with task := .readBuilt n } ∧
      step { t with task := .readBuilt n } =
        exec (.frameRead dev addr n) { t with resetLine := s.resetLine.drop 2 }

/-- R155, R174: a READ_REGISTER whose transport calls succeed (BUILD_READ, the transaction, PARSE, the read-out)
returns Ok with the values that PARSE extracts from the response; it leaves ERR = NONE and the read frame in the FRAME
latch. That it takes four steps is the model's choice (log 14), and that it moves the position on by two is the
model's deduction (log 12). -/
def Obligations.ReadRegisterReturnsTheParsedValues : Prop :=
  ∀ (s : State) (dev : Byte) (name : String) (n : Nat) (addr : U16) (rest : List HostEvent) (fixed : List Byte)
    (ws : List WriteAnswer) (rs : List ReadAnswer), s.Ready → s.NoReset 4 → addressOf name = .ok (.address addr) →
    s.pending = .readRegister dev name n :: rest → s.writeAnswers = .success :: ws →
    s.readAnswers = .bytes fixed :: rs → fixed.length = n →
    ∃ s₁ s₂ s₃ t u, exec (.parse fixed) s = .next u ∧
      step s = .next s₁ ∧ step s₁ = .next s₂ ∧ step s₂ = .next s₃ ∧ step s₃ = .next t ∧
      t.outcome = some (.ok (some u.values.contents)) ∧ t.task = .idle ∧ t.values = u.values ∧ t.err = 0 ∧
      t.csum = s.csum ∧ IsReadFrame dev addr t.frame.contents ∧ t.position = s.position + 2 ∧ t.pending = rest ∧
      t.traffic = s.traffic ++ [.write t.frame.contents .success, .read n (.bytes fixed)]

/-- Within one step no transport call is repeated: a step makes at most one write call and at most one read call, the
write first, and a read is made only after a write that succeeded. R156 for one step alone: it does not say that a
later step repeats nothing. That a write and its read share a step is the model's choice (log 14). -/
def Obligations.NoStepRetriesATransportCall : Prop :=
  ∀ s t : State, step s = .next t →
    t.traffic = s.traffic ∨ (∃ f, t.traffic = s.traffic ++ [.write f .transportError]) ∨
    ∃ f n a, t.traffic = s.traffic ++ [.write f .success, .read n a]

/-- U7: the lookup of the empty name gives neither an address nor NotFound, and a host operation on it is refused. -/
def Obligations.EmptyRegisterNameIsRefused : Prop :=
  addressOf "" = .error .emptyRegisterName ∧
  ∀ (s : State) (dev : Byte) (vals : List Int) (n : Nat) (rest : List HostEvent), s.Ready →
    (s.pending = .writeRegister dev "" vals :: rest → step s = .refused .emptyRegisterName) ∧
    (s.pending = .readRegister dev "" n :: rest → step s = .refused .emptyRegisterName)

/-- A blocked host operation lets no later event of the host happen (R157, R160; U15 calls it stuck): a step without a
reset keeps the state, but for the reset line's moving on. That being stuck is a step that answers the same machine is
the model's choice (log 5). -/
def Obligations.BlockedHostIssuesNothing : Prop :=
  ∀ s : State, s.errLegal = true → s.task = .blocked → s.NoReset 1 →
    step s = .next { s with resetLine := s.resetLine.tail }

/-- R160, U15, D26: a response that never comes is a TransportError where the transport has a timeout, and otherwise
leaves the host operation blocked, with the block as it was (the model's choice of FRAME_READ's meaning, log 5 and 6). -/
def Obligations.ReadThatNeverCompletesTimesOutOrBlocks : Prop :=
  ∀ (s : State) (dev : Byte) (addr : U16) (n : Nat) (ws : List WriteAnswer) (rs : List ReadAnswer),
    s.writeAnswers = .success :: ws → s.readAnswers = .never :: rs →
    ∃ t, exec (.frameRead dev addr n) s = .next t ∧ s.SameBlock t ∧
      match Config.transportTimeout with
      | some _ => t.outcome = some .transportError ∧ t.task = s.task
      | none => t.outcome = s.outcome ∧ t.task = .blocked

/-- With no event left, no host operation running and no reset, a step keeps the state, but for the reset line's
moving on. R184 says that the block is idle and its latches keep their values; that a finished sequence goes on with
such steps is the model's deduction (log 18). -/
def Obligations.IdleStepKeepsTheState : Prop :=
  ∀ s : State, s.Ready → s.pending = [] → step s = .next { s with resetLine := s.resetLine.tail }

/-- U4: a state whose ERR code is reserved is refused. -/
def Obligations.ReservedErrCodeIsRefused : Prop :=
  ∀ s : State, s.err = 2 ∨ s.err = 3 → step s = .refused .reservedErrCode

/-! ### Whole-machine rules -/

/-- R35 and R25: every step keeps the latch invariants and a legal ERR (R35 is marked as derived by the spec itself). -/
def Obligations.EveryStepKeepsTheLatchInvariant : Prop :=
  ∀ s t : State, s.Inv → step s = .next t → t.Inv

/-- R109, R153, R155: if a valid FRAME latch holds a request frame of R64 or R66 and all that was handed to the transport
are such frames, the same holds after every step: the host never sends anything else. -/
def Obligations.EveryStepSendsOnlyRequestFrames : Prop :=
  ∀ s t : State, s.TrafficInv → step s = .next t → t.TrafficInv

/-- R36: a latch changes only by its own operation, issued on the port or by a host operation, or by the platform's
reset, which clears its valid bit. -/
def Obligations.LatchesChangeOnlyByTheirOwnOperation : Prop :=
  ∀ s t : State, step s = .next t →
    (t.frame ≠ s.frame →
      ((∃ later, s.resetLine = true :: later) ∧ t.frame.valid = false) ∨
      (s.task = .idle ∧ ∃ e rest, s.pending = e :: rest ∧
        ((∃ p, e = .request (.port p) ∧ (p.op = 0b00 ∨ p.op = 0b01)) ∨ (∃ d n v, e = .writeRegister d n v) ∨
         (∃ d n k, e = .readRegister d n k)))) ∧
    (t.values ≠ s.values →
      ((∃ later, s.resetLine = true :: later) ∧ t.values.valid = false) ∨ (∃ r, s.task = .received r) ∨
      (s.task = .idle ∧ ∃ p rest, s.pending = .request (.port p) :: rest ∧ p.op = 0b10)) ∧
    (t.csum ≠ s.csum →
      ((∃ later, s.resetLine = true :: later) ∧ t.csum.valid = false) ∨
      (s.task = .idle ∧ ∃ p rest, s.pending = .request (.port p) :: rest ∧ p.op = 0b11))

/-- R30, R173: the only way a step ends in a fault is the host's read of a field that holds no value, a latch read of
its own or the read-out of a host operation; so no operation of the block ever faults. That a host operation's
read-out faults is the model's deduction, and the field it faults at, FRAME_LEN or VALUE_COUNT, is the model's choice,
FRAME_LEN for READ_REGISTER too, whose R155 reads FRAME_BYTES[0 .. 8] (log 14). -/
def Obligations.OnlyInvalidReadsFault : Prop :=
  ∀ (s : State) (fault : Fault), step s = .fault fault →
    ∃ f, fault = .readInvalidLatch f ∧ readLatch f s = .error fault ∧
      ((s.task = .idle ∧ ∃ rest, s.pending = .readLatch f :: rest) ∨
       (f = .frameLen ∧ (s.task = .writeBuilt ∨ ∃ n, s.task = .readBuilt n)) ∨
       (f = .valueCount ∧ s.task = .parsed))

/-- R61, R170, R179: every operation that a host can select completes, in every state: no OP value, operand or latch
state makes an operation stop. -/
def Obligations.EveryOperationOnThePortCompletes : Prop :=
  ∀ (s : State) (p : Ports) (rest : List HostEvent), s.Ready → s.pending = .request (.port p) :: rest →
    ∃ t, step s = .next t ∧ t.pending = rest ∧ (t.err = 1 ↔ p.op = 0b00 ∧ 6 < p.vals.length)
end

