-- ==== Sys2Proof/Laws/Bytes.lean ====
section
/-! SUPPORT. Byte order (R41) and the checksum's sum (R100). -/

namespace Sys2Proof.Machine

@[simp] theorem loByte_toNat (v : U16) : (loByte v).toNat = v.toNat % 256 := by
  simp [loByte, BitVec.extractLsb'_toNat]

@[simp] theorem hiByte_toNat (v : U16) : (hiByte v).toNat = v.toNat / 256 := by
  have h := v.isLt
  simp only [hiByte, BitVec.extractLsb'_toNat, Nat.shiftRight_eq_div_pow]
  omega

theorem loByte_eq_ofNat (v : U16) : loByte v = BitVec.ofNat 8 (v.toNat % 256) :=
  BitVec.eq_of_toNat_eq (by simp)

theorem hiByte_eq_ofNat (v : U16) : hiByte v = BitVec.ofNat 8 (v.toNat / 256) :=
  BitVec.eq_of_toNat_eq (by have := v.isLt; simp only [hiByte_toNat, BitVec.toNat_ofNat]; omega)

@[simp] theorem loByte_ofBytes (lo hi : Byte) : loByte (ofBytes lo hi) = lo := by
  ext i h
  simp [loByte, ofBytes, h, show i < 16 by omega]

@[simp] theorem hiByte_ofBytes (lo hi : Byte) : hiByte (ofBytes lo hi) = hi := by
  ext i h
  simp [hiByte, ofBytes, h, show 8 + i < 16 by omega]

theorem loByte_hiByte_inj {v w : U16} (hl : loByte v = loByte w) (hh : hiByte v = hiByte w) : v = w := by
  have h1 := congrArg BitVec.toNat hl
  have h2 := congrArg BitVec.toNat hh
  simp only [loByte_toNat, hiByte_toNat] at h1 h2
  exact BitVec.eq_of_toNat_eq (by omega)

@[simp] theorem ofBytes_loByte_hiByte (v : U16) : ofBytes (loByte v) (hiByte v) = v :=
  loByte_hiByte_inj (by simp) (by simp)

@[simp] theorem ofBytes_toNat (lo hi : Byte) : (ofBytes lo hi).toNat = lo.toNat + 256 * hi.toNat := by
  have h1 := congrArg BitVec.toNat (loByte_ofBytes lo hi)
  have h2 := congrArg BitVec.toNat (hiByte_ofBytes lo hi)
  simp only [loByte_toNat, hiByte_toNat] at h1 h2
  omega

@[simp] theorem toBytes_length (v : U16) : (toBytes v).length = 2 := rfl

theorem length_flatMap_toBytes (us : List U16) : (us.flatMap toBytes).length = 2 * us.length := by
  induction us with
  | nil => rfl
  | cons u us ih => simp only [List.flatMap_cons, List.length_append, ih, toBytes, List.length_cons, List.length_nil]; omega

/-- The bytes of value k of a payload stand at offsets 2k and 2k + 1 (R64). -/
theorem getElem?_flatMap_toBytes (us : List U16) (k : Nat) :
    (us.flatMap toBytes)[2 * k]? = (us[k]?).map loByte ∧ (us.flatMap toBytes)[2 * k + 1]? = (us[k]?).map hiByte := by
  induction us generalizing k with
  | nil => simp
  | cons u us ih =>
    cases k with
    | zero => simp [toBytes]
    | succ k =>
      have h2 : 2 * (k + 1) = (2 * k) + 1 + 1 := by omega
      simpa [toBytes, h2] using ih k

/-- Reading a payload gives back the values it was made of. -/
@[simp] theorem toU16s_flatMap_toBytes (us : List U16) : toU16s (us.flatMap toBytes) = some us := by
  induction us with
  | nil => rfl
  | cons u us ih => simp [toBytes] at ih ⊢; simp [toU16s, ih]

/-- A payload that reads as `us` is the payload made of `us`. -/
theorem eq_flatMap_toBytes_of_toU16s {bs : List Byte} {us : List U16} (h : toU16s bs = some us) :
    bs = us.flatMap toBytes := by
  induction bs using toU16s.induct generalizing us with
  | case1 =>
    simp only [toU16s, Option.some.injEq] at h
    subst h
    rfl
  | case2 b => simp [toU16s] at h
  | case3 lo hi rest ih =>
    simp only [toU16s, Option.map_eq_some_iff] at h
    obtain ⟨vs, hvs, rfl⟩ := h
    simp [toBytes, ← ih hvs]

theorem byteSum_eq_sum (s : List Byte) : byteSum s = (s.map BitVec.toNat).sum := by
  induction s with
  | nil => rfl
  | cons b s ih => simp [byteSum, ih]

@[simp] theorem byteSum_append (s t : List Byte) : byteSum (s ++ t) = byteSum s + byteSum t := by
  simp [byteSum_eq_sum]

theorem checksum8_toNat (s : List Byte) : (checksum8 s).toNat = (s.map BitVec.toNat).sum % 256 := by
  simp [checksum8, byteSum_eq_sum]

/-- `MemRead` is defined exactly when both offsets lie inside the sequence (R18). -/
theorem memRead16_eq_some {s : List Byte} {i : Nat} {v : U16} :
    memRead16 s i = some v ↔ ∃ lo hi, s[i]? = some lo ∧ s[i + 1]? = some hi ∧ v = ofBytes lo hi := by
  unfold memRead16
  split
  · rename_i lo hi h1 h2
    simp [h1, h2, eq_comm]
  · rename_i h
    simp only [reduceCtorEq, false_iff, not_exists, not_and]
    intro lo hi h1 h2
    exact absurd h2 (h lo hi h1)

theorem memRead16_isSome (s : List Byte) (i : Nat) : (memRead16 s i).isSome = decide (i + 1 < s.length) := by
  unfold memRead16
  split
  · rename_i lo hi h1 h2
    obtain ⟨h, -⟩ := List.getElem?_eq_some_iff.mp h2
    simp [h]
  · rename_i h
    by_cases hi : i + 1 < s.length
    · exact absurd (List.getElem?_eq_getElem hi) (h _ _ (List.getElem?_eq_getElem (by omega)))
    · simp [hi]

end Sys2Proof.Machine
end

