-- ==== Sys2Proof/Laws/Layout.lean ====
section
/-! SUPPORT. The shape of the request frames (R62, R64, R66): lengths, bytes by offset, and the checksum at the end (R68). -/

namespace Sys2Proof.Machine

theorem requestFrame_eq (dev dataLength cmd : Byte) (addr : U16) (payload : List Byte) :
    requestFrame dev dataLength cmd addr payload =
      Config.sync0 :: Config.sync1 :: dev :: dataLength :: cmd :: loByte addr :: hiByte addr ::
        (payload ++ [checksum8 (dev :: dataLength :: cmd :: loByte addr :: hiByte addr :: payload)]) := by
  simp [requestFrame]

@[simp] theorem requestFrame_length (dev dataLength cmd : Byte) (addr : U16) (payload : List Byte) :
    (requestFrame dev dataLength cmd addr payload).length = payload.length + 8 := by
  simp [requestFrame_eq]

/-- The last byte of a request frame is the checksum of what stands between it and the sync bytes (R68). -/
theorem requestFrame_getLast? (dev dataLength cmd : Byte) (addr : U16) (payload : List Byte) :
    (requestFrame dev dataLength cmd addr payload).getLast? =
      some (checksum8 ((requestFrame dev dataLength cmd addr payload).drop 2).dropLast) := by
  simp only [requestFrame_eq, List.drop_succ_cons, List.drop_zero]
  rw [show dev :: dataLength :: cmd :: loByte addr :: hiByte addr ::
      (payload ++ [checksum8 (dev :: dataLength :: cmd :: loByte addr :: hiByte addr :: payload)]) =
      (dev :: dataLength :: cmd :: loByte addr :: hiByte addr :: payload) ++
        [checksum8 (dev :: dataLength :: cmd :: loByte addr :: hiByte addr :: payload)] by simp]
  rw [List.dropLast_concat]
  simp [List.getLast?_cons]

@[simp] theorem writeFrame_length (dev : Byte) (addr : U16) (us : List U16) :
    (writeFrame dev addr us).length = 8 + 2 * us.length := by
  rw [writeFrame, requestFrame_length, length_flatMap_toBytes]
  omega

@[simp] theorem readFrame_length (dev : Byte) (addr : U16) : (readFrame dev addr).length = 9 := by
  simp [readFrame]

end Sys2Proof.Machine
end

