-- ==== Sys2Proof/Laws/State.lean ====
section
/-! SUPPORT. What each named update does to each field of State, so that no proof unfolds a record update. -/

namespace Sys2Proof.Machine.State

variable (s : State)

@[simp] theorem accept_frame : s.accept.frame = s.frame := rfl
@[simp] theorem accept_values : s.accept.values = s.values := rfl
@[simp] theorem accept_csum : s.accept.csum = s.csum := rfl
@[simp] theorem accept_err : s.accept.err = s.err := rfl
@[simp] theorem accept_position : s.accept.position = s.position + 1 := rfl
@[simp] theorem accept_pending : s.accept.pending = s.pending := rfl
@[simp] theorem accept_readOut : s.accept.readOut = s.readOut := rfl
@[simp] theorem accept_outcome : s.accept.outcome = s.outcome := rfl
@[simp] theorem accept_task : s.accept.task = s.task := rfl
@[simp] theorem accept_resetLine : s.accept.resetLine = s.resetLine := rfl
@[simp] theorem accept_traffic : s.accept.traffic = s.traffic := rfl
@[simp] theorem accept_writeAnswers : s.accept.writeAnswers = s.writeAnswers := rfl
@[simp] theorem accept_readAnswers : s.accept.readAnswers = s.readAnswers := rfl
@[simp] theorem accept_draws : s.accept.draws = s.draws := rfl

@[simp] theorem succeed_frame : s.succeed.frame = s.frame := rfl
@[simp] theorem succeed_values : s.succeed.values = s.values := rfl
@[simp] theorem succeed_csum : s.succeed.csum = s.csum := rfl
@[simp] theorem succeed_err : s.succeed.err = errNone := rfl
@[simp] theorem succeed_position : s.succeed.position = s.position := rfl
@[simp] theorem succeed_pending : s.succeed.pending = s.pending := rfl
@[simp] theorem succeed_readOut : s.succeed.readOut = s.readOut := rfl
@[simp] theorem succeed_outcome : s.succeed.outcome = s.outcome := rfl
@[simp] theorem succeed_task : s.succeed.task = s.task := rfl
@[simp] theorem succeed_resetLine : s.succeed.resetLine = s.resetLine := rfl
@[simp] theorem succeed_traffic : s.succeed.traffic = s.traffic := rfl
@[simp] theorem succeed_writeAnswers : s.succeed.writeAnswers = s.writeAnswers := rfl
@[simp] theorem succeed_readAnswers : s.succeed.readAnswers = s.readAnswers := rfl
@[simp] theorem succeed_draws : s.succeed.draws = s.draws := rfl

@[simp] theorem loadFrame_frame (f : List Byte) : (s.loadFrame f).frame = s.frame.load f := rfl
@[simp] theorem loadFrame_values (f : List Byte) : (s.loadFrame f).values = s.values := rfl
@[simp] theorem loadFrame_csum (f : List Byte) : (s.loadFrame f).csum = s.csum := rfl
@[simp] theorem loadFrame_err (f : List Byte) : (s.loadFrame f).err = s.err := rfl
@[simp] theorem loadFrame_position (f : List Byte) : (s.loadFrame f).position = s.position := rfl
@[simp] theorem loadFrame_pending (f : List Byte) : (s.loadFrame f).pending = s.pending := rfl
@[simp] theorem loadFrame_readOut (f : List Byte) : (s.loadFrame f).readOut = s.readOut := rfl
@[simp] theorem loadFrame_outcome (f : List Byte) : (s.loadFrame f).outcome = s.outcome := rfl
@[simp] theorem loadFrame_task (f : List Byte) : (s.loadFrame f).task = s.task := rfl
@[simp] theorem loadFrame_resetLine (f : List Byte) : (s.loadFrame f).resetLine = s.resetLine := rfl
@[simp] theorem loadFrame_traffic (f : List Byte) : (s.loadFrame f).traffic = s.traffic := rfl
@[simp] theorem loadFrame_writeAnswers (f : List Byte) : (s.loadFrame f).writeAnswers = s.writeAnswers := rfl
@[simp] theorem loadFrame_readAnswers (f : List Byte) : (s.loadFrame f).readAnswers = s.readAnswers := rfl
@[simp] theorem loadFrame_draws (f : List Byte) : (s.loadFrame f).draws = s.draws := rfl

@[simp] theorem loadValues_frame (vs : List U16) : (s.loadValues vs).frame = s.frame := rfl
@[simp] theorem loadValues_values (vs : List U16) : (s.loadValues vs).values = s.values.load vs := rfl
@[simp] theorem loadValues_csum (vs : List U16) : (s.loadValues vs).csum = s.csum := rfl
@[simp] theorem loadValues_err (vs : List U16) : (s.loadValues vs).err = s.err := rfl
@[simp] theorem loadValues_position (vs : List U16) : (s.loadValues vs).position = s.position := rfl
@[simp] theorem loadValues_pending (vs : List U16) : (s.loadValues vs).pending = s.pending := rfl
@[simp] theorem loadValues_readOut (vs : List U16) : (s.loadValues vs).readOut = s.readOut := rfl
@[simp] theorem loadValues_outcome (vs : List U16) : (s.loadValues vs).outcome = s.outcome := rfl
@[simp] theorem loadValues_task (vs : List U16) : (s.loadValues vs).task = s.task := rfl
@[simp] theorem loadValues_resetLine (vs : List U16) : (s.loadValues vs).resetLine = s.resetLine := rfl
@[simp] theorem loadValues_traffic (vs : List U16) : (s.loadValues vs).traffic = s.traffic := rfl
@[simp] theorem loadValues_writeAnswers (vs : List U16) : (s.loadValues vs).writeAnswers = s.writeAnswers := rfl
@[simp] theorem loadValues_readAnswers (vs : List U16) : (s.loadValues vs).readAnswers = s.readAnswers := rfl
@[simp] theorem loadValues_draws (vs : List U16) : (s.loadValues vs).draws = s.draws := rfl

@[simp] theorem loadCsum_frame (c : Byte) : (s.loadCsum c).frame = s.frame := rfl
@[simp] theorem loadCsum_values (c : Byte) : (s.loadCsum c).values = s.values := rfl
@[simp] theorem loadCsum_csum (c : Byte) : (s.loadCsum c).csum = ⟨true, c⟩ := rfl
@[simp] theorem loadCsum_err (c : Byte) : (s.loadCsum c).err = s.err := rfl
@[simp] theorem loadCsum_position (c : Byte) : (s.loadCsum c).position = s.position := rfl
@[simp] theorem loadCsum_pending (c : Byte) : (s.loadCsum c).pending = s.pending := rfl
@[simp] theorem loadCsum_readOut (c : Byte) : (s.loadCsum c).readOut = s.readOut := rfl
@[simp] theorem loadCsum_outcome (c : Byte) : (s.loadCsum c).outcome = s.outcome := rfl
@[simp] theorem loadCsum_task (c : Byte) : (s.loadCsum c).task = s.task := rfl
@[simp] theorem loadCsum_resetLine (c : Byte) : (s.loadCsum c).resetLine = s.resetLine := rfl
@[simp] theorem loadCsum_traffic (c : Byte) : (s.loadCsum c).traffic = s.traffic := rfl
@[simp] theorem loadCsum_writeAnswers (c : Byte) : (s.loadCsum c).writeAnswers = s.writeAnswers := rfl
@[simp] theorem loadCsum_readAnswers (c : Byte) : (s.loadCsum c).readAnswers = s.readAnswers := rfl
@[simp] theorem loadCsum_draws (c : Byte) : (s.loadCsum c).draws = s.draws := rfl

@[simp] theorem raiseTooManyValues_frame : s.raiseTooManyValues.frame = { s.frame with valid := false } := rfl
@[simp] theorem raiseTooManyValues_values : s.raiseTooManyValues.values = s.values := rfl
@[simp] theorem raiseTooManyValues_csum : s.raiseTooManyValues.csum = s.csum := rfl
@[simp] theorem raiseTooManyValues_err : s.raiseTooManyValues.err = errTooManyValues := rfl
@[simp] theorem raiseTooManyValues_position : s.raiseTooManyValues.position = s.position := rfl
@[simp] theorem raiseTooManyValues_pending : s.raiseTooManyValues.pending = s.pending := rfl
@[simp] theorem raiseTooManyValues_readOut : s.raiseTooManyValues.readOut = s.readOut := rfl
@[simp] theorem raiseTooManyValues_outcome : s.raiseTooManyValues.outcome = s.outcome := rfl
@[simp] theorem raiseTooManyValues_task : s.raiseTooManyValues.task = s.task := rfl
@[simp] theorem raiseTooManyValues_resetLine : s.raiseTooManyValues.resetLine = s.resetLine := rfl
@[simp] theorem raiseTooManyValues_traffic : s.raiseTooManyValues.traffic = s.traffic := rfl
@[simp] theorem raiseTooManyValues_writeAnswers : s.raiseTooManyValues.writeAnswers = s.writeAnswers := rfl
@[simp] theorem raiseTooManyValues_readAnswers : s.raiseTooManyValues.readAnswers = s.readAnswers := rfl
@[simp] theorem raiseTooManyValues_draws : s.raiseTooManyValues.draws = s.draws := rfl

@[simp] theorem resetBlock_frame : s.resetBlock.frame = { s.frame with valid := false } := rfl
@[simp] theorem resetBlock_values : s.resetBlock.values = { s.values with valid := false } := rfl
@[simp] theorem resetBlock_csum : s.resetBlock.csum = { s.csum with valid := false } := rfl
@[simp] theorem resetBlock_err : s.resetBlock.err = errNone := rfl
@[simp] theorem resetBlock_position : s.resetBlock.position = s.position := rfl
@[simp] theorem resetBlock_pending : s.resetBlock.pending = s.pending := rfl
@[simp] theorem resetBlock_readOut : s.resetBlock.readOut = s.readOut := rfl
@[simp] theorem resetBlock_outcome : s.resetBlock.outcome = s.outcome := rfl
@[simp] theorem resetBlock_task : s.resetBlock.task = s.task := rfl
@[simp] theorem resetBlock_resetLine : s.resetBlock.resetLine = s.resetLine := rfl
@[simp] theorem resetBlock_traffic : s.resetBlock.traffic = s.traffic := rfl
@[simp] theorem resetBlock_writeAnswers : s.resetBlock.writeAnswers = s.writeAnswers := rfl
@[simp] theorem resetBlock_readAnswers : s.resetBlock.readAnswers = s.readAnswers := rfl
@[simp] theorem resetBlock_draws : s.resetBlock.draws = s.draws := rfl

@[simp] theorem returnOutcome_frame (o : HostOutcome) : (s.returnOutcome o).frame = s.frame := rfl
@[simp] theorem returnOutcome_values (o : HostOutcome) : (s.returnOutcome o).values = s.values := rfl
@[simp] theorem returnOutcome_csum (o : HostOutcome) : (s.returnOutcome o).csum = s.csum := rfl
@[simp] theorem returnOutcome_err (o : HostOutcome) : (s.returnOutcome o).err = s.err := rfl
@[simp] theorem returnOutcome_position (o : HostOutcome) : (s.returnOutcome o).position = s.position := rfl
@[simp] theorem returnOutcome_pending (o : HostOutcome) : (s.returnOutcome o).pending = s.pending := rfl
@[simp] theorem returnOutcome_readOut (o : HostOutcome) : (s.returnOutcome o).readOut = s.readOut := rfl
@[simp] theorem returnOutcome_outcome (o : HostOutcome) : (s.returnOutcome o).outcome = some o := rfl
@[simp] theorem returnOutcome_task (o : HostOutcome) : (s.returnOutcome o).task = s.task := rfl
@[simp] theorem returnOutcome_resetLine (o : HostOutcome) : (s.returnOutcome o).resetLine = s.resetLine := rfl
@[simp] theorem returnOutcome_traffic (o : HostOutcome) : (s.returnOutcome o).traffic = s.traffic := rfl
@[simp] theorem returnOutcome_writeAnswers (o : HostOutcome) :
    (s.returnOutcome o).writeAnswers = s.writeAnswers := rfl
@[simp] theorem returnOutcome_readAnswers (o : HostOutcome) : (s.returnOutcome o).readAnswers = s.readAnswers := rfl
@[simp] theorem returnOutcome_draws (o : HostOutcome) : (s.returnOutcome o).draws = s.draws := rfl

@[simp] theorem goTo_frame (k : HostTask) : (s.goTo k).frame = s.frame := rfl
@[simp] theorem goTo_values (k : HostTask) : (s.goTo k).values = s.values := rfl
@[simp] theorem goTo_csum (k : HostTask) : (s.goTo k).csum = s.csum := rfl
@[simp] theorem goTo_err (k : HostTask) : (s.goTo k).err = s.err := rfl
@[simp] theorem goTo_position (k : HostTask) : (s.goTo k).position = s.position := rfl
@[simp] theorem goTo_pending (k : HostTask) : (s.goTo k).pending = s.pending := rfl
@[simp] theorem goTo_readOut (k : HostTask) : (s.goTo k).readOut = s.readOut := rfl
@[simp] theorem goTo_outcome (k : HostTask) : (s.goTo k).outcome = s.outcome := rfl
@[simp] theorem goTo_task (k : HostTask) : (s.goTo k).task = k := rfl
@[simp] theorem goTo_resetLine (k : HostTask) : (s.goTo k).resetLine = s.resetLine := rfl
@[simp] theorem goTo_traffic (k : HostTask) : (s.goTo k).traffic = s.traffic := rfl
@[simp] theorem goTo_writeAnswers (k : HostTask) : (s.goTo k).writeAnswers = s.writeAnswers := rfl
@[simp] theorem goTo_readAnswers (k : HostTask) : (s.goTo k).readAnswers = s.readAnswers := rfl
@[simp] theorem goTo_draws (k : HostTask) : (s.goTo k).draws = s.draws := rfl

@[simp] theorem transportWrite_frame (f : List Byte) : (s.transportWrite f).frame = s.frame := rfl
@[simp] theorem transportWrite_values (f : List Byte) : (s.transportWrite f).values = s.values := rfl
@[simp] theorem transportWrite_csum (f : List Byte) : (s.transportWrite f).csum = s.csum := rfl
@[simp] theorem transportWrite_err (f : List Byte) : (s.transportWrite f).err = s.err := rfl
@[simp] theorem transportWrite_position (f : List Byte) : (s.transportWrite f).position = s.position := rfl
@[simp] theorem transportWrite_pending (f : List Byte) : (s.transportWrite f).pending = s.pending := rfl
@[simp] theorem transportWrite_readOut (f : List Byte) : (s.transportWrite f).readOut = s.readOut := rfl
@[simp] theorem transportWrite_outcome (f : List Byte) : (s.transportWrite f).outcome = s.outcome := rfl
@[simp] theorem transportWrite_task (f : List Byte) : (s.transportWrite f).task = s.task := rfl
@[simp] theorem transportWrite_resetLine (f : List Byte) : (s.transportWrite f).resetLine = s.resetLine := rfl
@[simp] theorem transportWrite_traffic (f : List Byte) :
    (s.transportWrite f).traffic = s.traffic ++ [.write f s.nextWriteAnswer] := rfl
@[simp] theorem transportWrite_writeAnswers (f : List Byte) :
    (s.transportWrite f).writeAnswers = s.writeAnswers.tail := rfl
@[simp] theorem transportWrite_readAnswers (f : List Byte) : (s.transportWrite f).readAnswers = s.readAnswers := rfl
@[simp] theorem transportWrite_draws (f : List Byte) : (s.transportWrite f).draws = s.draws + 1 := rfl

@[simp] theorem transportRead_frame (n : Nat) : (s.transportRead n).frame = s.frame := rfl
@[simp] theorem transportRead_values (n : Nat) : (s.transportRead n).values = s.values := rfl
@[simp] theorem transportRead_csum (n : Nat) : (s.transportRead n).csum = s.csum := rfl
@[simp] theorem transportRead_err (n : Nat) : (s.transportRead n).err = s.err := rfl
@[simp] theorem transportRead_position (n : Nat) : (s.transportRead n).position = s.position := rfl
@[simp] theorem transportRead_pending (n : Nat) : (s.transportRead n).pending = s.pending := rfl
@[simp] theorem transportRead_readOut (n : Nat) : (s.transportRead n).readOut = s.readOut := rfl
@[simp] theorem transportRead_outcome (n : Nat) : (s.transportRead n).outcome = s.outcome := rfl
@[simp] theorem transportRead_task (n : Nat) : (s.transportRead n).task = s.task := rfl
@[simp] theorem transportRead_resetLine (n : Nat) : (s.transportRead n).resetLine = s.resetLine := rfl
@[simp] theorem transportRead_traffic (n : Nat) :
    (s.transportRead n).traffic = s.traffic ++ [.read n (s.nextReadAnswer n)] := rfl
@[simp] theorem transportRead_writeAnswers (n : Nat) : (s.transportRead n).writeAnswers = s.writeAnswers := rfl
@[simp] theorem transportRead_readAnswers (n : Nat) : (s.transportRead n).readAnswers = s.readAnswers.tail := rfl
@[simp] theorem transportRead_draws (n : Nat) : (s.transportRead n).draws = s.draws + 1 := rfl

end Sys2Proof.Machine.State
end

