-- ==== Sys2Proof/Laws/FrameCodec.lean ====
section
/-! SUPPORT. Everything BUILD_WRITE can do (R101, R102), and the four forms that a port request decodes to (R60). -/

namespace Sys2Proof

open Machine

/-- A port request is one of the four operations, by its OP. -/
theorem decodePorts_cases (p : Ports) :
    (p.op = 0b00 ∧ decodePorts p = .buildWrite p.devId p.addr p.vals) ∨
    (p.op = 0b01 ∧ decodePorts p = .buildRead p.devId p.addr) ∨
    (p.op = 0b10 ∧ decodePorts p = .parse p.raw) ∨ (p.op = 0b11 ∧ decodePorts p = .checksum p.csIn) := by
  obtain ⟨op, dev, addr, vals, raw, csIn⟩ := p
  have hop : op = 0b00 ∨ op = 0b01 ∨ op = 0b10 ∨ op = 0b11 := by revert op; decide
  rcases hop with rfl | rfl | rfl | rfl <;> simp [decodePorts]

namespace Machine

/-- BUILD_WRITE either loads the write frame or raises TOO_MANY_VALUES. -/
theorem buildWrite_cases (dev : Byte) (addr : U16) (vals : List Int) (s : State) :
    (vals.length ≤ 6 ∧
      buildWrite dev addr vals s = (s.loadFrame (writeFrame dev addr (vals.map truncate16))).succeed.accept) ∨
    (6 < vals.length ∧ buildWrite dev addr vals s = s.raiseTooManyValues.accept) := by
  by_cases h : vals.length ≤ 6
  · exact .inl ⟨h, if_neg (by simpa [Config.maxValues] using h)⟩
  · exact .inr ⟨by omega, if_pos (by simpa [Config.maxValues] using h)⟩

/-- A write frame of at most six values fits the FRAME latch (R15). -/
theorem writeFrame_length_le (dev : Byte) (addr : U16) {us : List U16} (h : us.length ≤ 6) :
    (writeFrame dev addr us).length ≤ 20 := by
  rw [writeFrame_length]; omega

end Machine
end Sys2Proof
end

