-- ==== Sys2Proof/Laws/Latches.lean ====
section
/-! SUPPORT. What loading a latch leaves to be read (R21, R22), and the host's reads (R30). -/

namespace Sys2Proof.Machine

@[simp] theorem FrameLatch.load_valid (l : FrameLatch) (f : List Byte) : (l.load f).valid = true := rfl

@[simp] theorem FrameLatch.load_len (l : FrameLatch) (f : List Byte) :
    (l.load f).len = BitVec.ofNat 5 f.length := rfl

@[simp] theorem ValuesLatch.load_valid (l : ValuesLatch) (vs : List U16) : (l.load vs).valid = true := rfl

@[simp] theorem ValuesLatch.load_count (l : ValuesLatch) (vs : List U16) :
    (l.load vs).count = BitVec.ofNat 3 vs.length := rfl

theorem FrameLatch.load_getElem? (l : FrameLatch) (f : List Byte) {i : Nat} (h : i < f.length) (h20 : i < 20) :
    (l.load f).bytes[i]? = f[i]? := by
  simp [FrameLatch.load, h, h20]

theorem ValuesLatch.load_getElem? (l : ValuesLatch) (vs : List U16) {k : Nat} (h : k < vs.length) (h6 : k < 6) :
    (l.load vs).slots[k]? = vs[k]? := by
  simp [ValuesLatch.load, h, h6]

/-- A loaded frame of at most 20 bytes is what the latch holds. -/
theorem FrameLatch.load_contents (l : FrameLatch) {f : List Byte} (h : f.length ≤ 20) : (l.load f).contents = f := by
  apply List.ext_getElem?
  intro i
  simp only [FrameLatch.contents, FrameLatch.load_len, BitVec.toNat_ofNat, List.getElem?_take, Vector.getElem?_toList]
  split
  · rename_i hi
    exact l.load_getElem? f (by omega) (by omega)
  · rename_i hi
    exact (List.getElem?_eq_none (by omega)).symm

/-- At most six loaded values are what the latch holds. -/
theorem ValuesLatch.load_contents (l : ValuesLatch) {vs : List U16} (h : vs.length ≤ 6) : (l.load vs).contents = vs := by
  apply List.ext_getElem?
  intro k
  simp only [ValuesLatch.contents, ValuesLatch.load_count, BitVec.toNat_ofNat, List.getElem?_take,
    Vector.getElem?_toList]
  split
  · rename_i hi
    exact l.load_getElem? vs (by omega) (by omega)
  · rename_i hi
    exact (List.getElem?_eq_none (by omega)).symm

/-- A second load of the same frame changes nothing. -/
theorem FrameLatch.load_load (l : FrameLatch) (f : List Byte) : (l.load f).load f = l.load f := by
  simp only [FrameLatch.load, FrameLatch.mk.injEq, true_and]
  apply Vector.ext
  intro i h
  simp only [Vector.getElem_ofFn]
  cases f[i]? <;> rfl

/-- A second load of the same values changes nothing. -/
theorem ValuesLatch.load_load (l : ValuesLatch) (vs : List U16) : (l.load vs).load vs = l.load vs := by
  simp only [ValuesLatch.load, ValuesLatch.mk.injEq, true_and]
  apply Vector.ext
  intro k h
  simp only [Vector.getElem_ofFn]
  cases vs[k]? <;> rfl

theorem FrameLatch.contents_getElem? (l : FrameLatch) (i : Nat) :
    l.contents[i]? = if i < l.len.toNat then l.bytes[i]? else none := by
  simp [FrameLatch.contents, List.getElem?_take]

theorem ValuesLatch.contents_getElem? (l : ValuesLatch) (k : Nat) :
    l.contents[k]? = if k < l.count.toNat then l.slots[k]? else none := by
  simp [ValuesLatch.contents, List.getElem?_take]

/-- A latch read faults with ReadInvalidLatch of its own field and with nothing else (R30). -/
theorem readLatch_error {f : LatchField} {s : State} {e : Fault} (h : readLatch f s = .error e) :
    e = .readInvalidLatch f := by
  cases f with
  | status => simp [readLatch] at h
  | frameLen => simp only [readLatch] at h; split at h <;> simp_all
  | frameByte i => simp only [readLatch] at h; split at h <;> simp_all
  | valueCount => simp only [readLatch] at h; split at h <;> simp_all
  | value k => simp only [readLatch] at h; split at h <;> simp_all
  | csumValue => simp only [readLatch] at h; split at h <;> simp_all

end Sys2Proof.Machine
end

