-- ==== Sys2Proof/Laws/Step.lean ====
section
/-! SUPPORT. What a step, an event and the actions of a host operation can do, said once for each. -/

namespace Sys2Proof.Machine

@[simp] theorem errLegal_iff (s : State) : s.errLegal = true ↔ s.err = 0 ∨ s.err = 1 := by
  rw [State.errLegal, Bool.or_eq_true]
  exact or_congr decide_eq_true_iff decide_eq_true_iff

/-- A step is the platform's reset, the host's action, or refused. -/
theorem step_eq (s : State) :
    (s.errLegal = true ∧ ∃ later, s.resetLine = true :: later ∧
      step s = .next { s.resetBlock with resetLine := later }) ∨
    (s.errLegal = true ∧ s.resetLine.head? ≠ some true ∧
      step s = hostAction { s with resetLine := s.resetLine.tail }) ∨
    (s.errLegal = false ∧ step s = .refused .reservedErrCode) := by
  by_cases hl : s.errLegal = true
  · simp only [step, hl, if_true, nextAction]
    split
    · rename_i later hr
      exact .inl ⟨trivial, later, hr, rfl⟩
    · rename_i hr
      refine .inr (.inl ⟨trivial, fun hh => ?_, rfl⟩)
      obtain ⟨later, hl⟩ := List.head?_eq_some_iff.mp hh
      exact hr later hl
  · exact .inr (.inr ⟨Bool.eq_false_iff.mpr hl, by rw [step, if_neg hl]⟩)

/-- Without a reset in this step, the step is the host's action. -/
theorem step_eq_hostAction {s : State} (hl : s.errLegal = true) (hr : s.resetLine.head? ≠ some true) :
    step s = hostAction { s with resetLine := s.resetLine.tail } := by
  rcases step_eq s with ⟨-, later, hh, -⟩ | ⟨-, -, h⟩ | ⟨hh, -⟩
  · simp [hh] at hr
  · exact h
  · simp [hl] at hh

/-- With a reset in this step, the step is the reset. -/
theorem step_eq_reset {s : State} {later : List Bool} (hl : s.errLegal = true) (hr : s.resetLine = true :: later) :
    step s = .next { s.resetBlock with resetLine := later } := by
  rw [step, if_pos hl, nextAction, hr]

/-- From a state where the host can issue its next event, the step is that event. -/
theorem step_of_pending {s : State} {e : HostEvent} {rest : List HostEvent} (hl : s.errLegal = true)
    (hr : s.resetLine.head? ≠ some true) (ht : s.task = .idle) (hp : s.pending = e :: rest) :
    step s = runEvent e { s with pending := rest, resetLine := s.resetLine.tail } := by
  rw [step_eq_hostAction hl hr]
  simp only [hostAction, ht, hp]

/-- Everything the host's action can be. -/
theorem hostAction_cases (s : State) :
    (s.task = .writeBuilt ∧ hostAction s = finishWrite s) ∨
    (∃ n, s.task = .readBuilt n ∧ hostAction s = finishRead n s) ∨
    (∃ r, s.task = .received r ∧ hostAction s = .next ((parse r s).goTo .parsed)) ∨
    (s.task = .parsed ∧ hostAction s = returnValues s) ∨
    ((s.task = .blocked ∨ s.task = .idle ∧ s.pending = []) ∧ hostAction s = .next s) ∨
    (∃ e rest, s.task = .idle ∧ s.pending = e :: rest ∧
      hostAction s = runEvent e { s with pending := rest }) := by
  cases ht : s.task with
  | writeBuilt => exact .inl ⟨rfl, by simp [hostAction, ht]⟩
  | readBuilt n => exact .inr (.inl ⟨n, rfl, by simp [hostAction, ht]⟩)
  | received r => exact .inr (.inr (.inl ⟨r, rfl, by simp [hostAction, ht]⟩))
  | parsed => exact .inr (.inr (.inr (.inl ⟨rfl, by simp [hostAction, ht]⟩)))
  | blocked => exact .inr (.inr (.inr (.inr (.inl ⟨.inl rfl, by simp [hostAction, ht]⟩))))
  | idle =>
    cases hp : s.pending with
    | nil => exact .inr (.inr (.inr (.inr (.inl ⟨.inr ⟨rfl, rfl⟩, by simp [hostAction, ht, hp]⟩))))
    | cons e rest => exact .inr (.inr (.inr (.inr (.inr ⟨e, rest, rfl, rfl, by simp [hostAction, ht, hp]⟩))))

/-- After BUILD_READ the host reads the read frame in the latch. -/
theorem readFrameBytes_buildRead (dev : Byte) (addr : U16) (s : State) :
    readFrameBytes (buildRead dev addr s) = .ok (readFrame dev addr) := by
  simp [readFrameBytes, buildRead, FrameLatch.load_contents]

/-- After an accepted BUILD_WRITE the host reads the write frame in the latch. -/
theorem readFrameBytes_buildWrite (dev : Byte) (addr : U16) {vals : List Int} (s : State) (h : vals.length ≤ 6) :
    readFrameBytes (buildWrite dev addr vals s) = .ok (writeFrame dev addr (vals.map truncate16)) := by
  rcases buildWrite_cases dev addr vals s with ⟨-, e⟩ | ⟨h', -⟩
  · have hl := writeFrame_length_le dev addr (us := vals.map truncate16) (by simpa using h)
    simp [e, readFrameBytes, FrameLatch.load_contents _ hl]
  · omega

/-- The lookup refuses the empty name (U7) and answers for every other (R158). -/
theorem addressOf_cases (name : String) :
    (name = "" ∧ addressOf name = .error .emptyRegisterName) ∨
    (name ≠ "" ∧ addressOf name = .ok .notFound) ∨ (∃ a, name ≠ "" ∧ addressOf name = .ok (.address a)) := by
  by_cases hn : name = ""
  · exact .inl ⟨hn, by simp [addressOf, hn]⟩
  · cases hs : scanCatalog name with
    | notFound => exact .inr (.inl ⟨hn, by simp [addressOf, hn, hs]⟩)
    | address a => exact .inr (.inr ⟨a, hn, by simp [addressOf, hn, hs]⟩)

/-- Everything WRITE_REGISTER can do in its first step (R153). -/
theorem writeRegister_cases (dev : Byte) (name : String) (vals : List Int) (s : State) :
    (addressOf name = .error .emptyRegisterName ∧ writeRegister dev name vals s = .refused .emptyRegisterName) ∨
    (addressOf name = .ok .notFound ∧
      writeRegister dev name vals s = .next (s.returnOutcome .configurationError)) ∨
    (∃ addr, addressOf name = .ok (.address addr) ∧
      writeRegister dev name vals s = .next ((buildWrite dev addr vals s).goTo .writeBuilt)) := by
  rcases addressOf_cases name with ⟨-, h⟩ | ⟨-, h⟩ | ⟨a, -, h⟩
  · exact .inl ⟨h, by simp [writeRegister, h]⟩
  · exact .inr (.inl ⟨h, by simp [writeRegister, h]⟩)
  · exact .inr (.inr ⟨a, h, by simp [writeRegister, h]⟩)

/-- Everything READ_REGISTER can do in its first step (R155). -/
theorem readRegister_cases (dev : Byte) (name : String) (n : Nat) (s : State) :
    (addressOf name = .error .emptyRegisterName ∧ readRegister dev name n s = .refused .emptyRegisterName) ∨
    (addressOf name = .ok .notFound ∧
      readRegister dev name n s = .next (s.returnOutcome .configurationError)) ∨
    (∃ addr, addressOf name = .ok (.address addr) ∧
      readRegister dev name n s = .next ((buildRead dev addr s).goTo (.readBuilt n))) := by
  rcases addressOf_cases name with ⟨-, h⟩ | ⟨-, h⟩ | ⟨a, -, h⟩
  · exact .inl ⟨h, by simp [readRegister, h]⟩
  · exact .inr (.inl ⟨h, by simp [readRegister, h]⟩)
  · exact .inr (.inr ⟨a, h, by simp [readRegister, h]⟩)

/-- Everything the rest of WRITE_REGISTER can do (R153). -/
theorem finishWrite_cases (s : State) :
    (s.err = 1 ∧ finishWrite s = .next ((s.goTo .idle).returnOutcome .validationError)) ∨
    (s.err ≠ 1 ∧ s.frame.valid = false ∧ finishWrite s = .fault (.readInvalidLatch .frameLen)) ∨
    (s.err ≠ 1 ∧ s.frame.valid = true ∧ finishWrite s = .next (sendWriteFrame s.frame.contents (s.goTo .idle))) := by
  by_cases he : s.err = errTooManyValues
  · exact .inl ⟨he, by simp [finishWrite, he]⟩
  · cases hv : s.frame.valid
    · exact .inr (.inl ⟨he, rfl, by simp [finishWrite, he, readFrameBytes, hv]⟩)
    · exact .inr (.inr ⟨he, rfl, by simp [finishWrite, he, readFrameBytes, hv]⟩)

/-- Everything the frame read-out and transaction of READ_REGISTER can do (R155). -/
theorem finishRead_cases (n : Nat) (s : State) :
    (s.frame.valid = false ∧ finishRead n s = .fault (.readInvalidLatch .frameLen)) ∨
    (s.frame.valid = true ∧ finishRead n s = .next (sendReadFrame s.frame.contents n (s.goTo .idle))) := by
  cases hv : s.frame.valid
  · exact .inl ⟨rfl, by simp [finishRead, readFrameBytes, hv]⟩
  · exact .inr ⟨rfl, by simp [finishRead, readFrameBytes, hv]⟩

/-- Everything the value read-out of READ_REGISTER can do (R155). -/
theorem returnValues_cases (s : State) :
    (s.values.valid = false ∧ returnValues s = .fault (.readInvalidLatch .valueCount)) ∨
    (s.values.valid = true ∧
      returnValues s = .next ((s.goTo .idle).returnOutcome (.ok (some s.values.contents)))) := by
  cases hv : s.values.valid
  · exact .inl ⟨rfl, by simp [returnValues, readValues, hv]⟩
  · exact .inr ⟨rfl, by simp [returnValues, readValues, hv]⟩

end Sys2Proof.Machine
end

