-- ==== Sys2Proof/Laws/NoReset.lean ====
section
/-! SUPPORT. Steps in which the platform does not reset the block (R190), and the step of a host that is free to issue its
next event. -/

namespace Sys2Proof.Machine.State

/-- Past its end the reset line asks for no reset. -/
theorem noReset_of_nil {s : State} (h : s.resetLine = []) (k : Nat) : s.NoReset k := by
  simp [NoReset, h]

/-- Fewer steps without a reset. -/
theorem NoReset.mono {s : State} {j k : Nat} (h : s.NoReset k) (hj : j ≤ k) : s.NoReset j :=
  fun b hb => h b (List.take_subset_take_left _ hj hb)

/-- The platform does not reset the block in this step. -/
theorem NoReset.head {s : State} {k : Nat} (h : s.NoReset (k + 1)) : s.resetLine.head? ≠ some true := by
  intro hh
  obtain ⟨l, hl⟩ := List.head?_eq_some_iff.mp hh
  exact absurd (h true (by simp [hl])) (by decide)

/-- One step later, one step fewer without a reset. -/
theorem NoReset.tail {s t : State} {k : Nat} (h : s.NoReset (k + 1)) (ht : t.resetLine = s.resetLine.tail) :
    t.NoReset k := by
  intro b hb
  rw [ht] at hb
  cases hs : s.resetLine with
  | nil => simp [hs] at hb
  | cons a l =>
    apply h b
    rw [hs] at hb ⊢
    exact List.mem_cons_of_mem a (by simpa using hb)

/-- The step of a host that is free to issue its next event is that event. -/
theorem Ready.step_eq {s : State} {e : HostEvent} {rest : List HostEvent} (h : s.Ready) (hp : s.pending = e :: rest) :
    step s = runEvent e (s.withRest rest) :=
  step_of_pending h.1 h.2.2.head h.2.1 hp

end Sys2Proof.Machine.State
end

