-- ==== Sys2Proof/Laws/Operands.lean ====
section
/-! SUPPORT. Truncation (R65), the clamp (R132), and which slots of a raw response are present (R131, R133). -/

namespace Sys2Proof.Machine

theorem truncate16_eq_ofNat (v : Int) : truncate16 v = BitVec.ofNat 16 (v % 65536).toNat := by
  apply BitVec.eq_of_toNat_eq
  simp only [truncate16, BitVec.toNat_ofInt, BitVec.toNat_ofNat]
  omega

theorem clamp_toNat (v : U16) : (clamp v).toNat = if 6000 < v.toNat then 0 else v.toNat := by
  unfold clamp
  split
  · rename_i h
    simp [show 6000 < v.toNat from h]
  · rename_i h
    simp [show ¬ 6000 < v.toNat from h]

theorem clamp_le (v : U16) : (clamp v).toNat ≤ 6000 := by
  rw [clamp_toNat]
  split <;> omega

theorem slotValue_eq_some {raw : List Byte} {k : Nat} {v : U16} :
    slotValue raw k = some v ↔
      ∃ lo hi, raw[7 + 2 * k]? = some lo ∧ raw[8 + 2 * k]? = some hi ∧ v = clamp (ofBytes lo hi) := by
  have h8 : 7 + 2 * k + 1 = 8 + 2 * k := by omega
  simp only [slotValue, slotOffset, Config.parseBase, Config.parseStride, Option.map_eq_some_iff, memRead16_eq_some, h8]
  constructor
  · rintro ⟨w, ⟨lo, hi, h1, h2, rfl⟩, rfl⟩
    exact ⟨lo, hi, h1, h2, rfl⟩
  · rintro ⟨lo, hi, h1, h2, rfl⟩
    exact ⟨_, ⟨lo, hi, h1, h2, rfl⟩, rfl⟩

/-- Slot k is present exactly when both bytes of its pair lie inside the response (R131). -/
theorem slotValue_isSome (raw : List Byte) (k : Nat) : (slotValue raw k).isSome = decide (8 + 2 * k < raw.length) := by
  simp only [slotValue, Option.isSome_map, memRead16_isSome, slotOffset, Config.parseBase, Config.parseStride]
  congr 1
  simp only [eq_iff_iff]
  omega

/-- Over a decreasing set of present slots, the kept values are the slots' values in order. -/
theorem filterMap_range_prefix {α : Type} (g : Nat → Option α) (n m : Nat) (hm : m ≤ n)
    (h : ∀ k, k < n → ((g k).isSome = decide (k < m))) :
    ((List.range n).filterMap g).length = m ∧ ∀ k, k < m → ((List.range n).filterMap g)[k]? = g k := by
  induction n generalizing m with
  | zero => simp_all
  | succ n ih =>
    rw [List.range_succ, List.filterMap_append]
    have hn := h n (by omega)
    by_cases hmn : m = n + 1
    · subst hmn
      obtain ⟨hl, hg⟩ := ih n (by omega) (fun k hk => by rw [h k (by omega)]; simp; omega)
      obtain ⟨v, hv⟩ := Option.isSome_iff_exists.mp (hn.trans (by simp))
      simp only [List.filterMap_cons, hv, List.filterMap_nil, List.length_append, hl, List.length_cons, List.length_nil]
      refine ⟨trivial, fun k hk => ?_⟩
      by_cases hkn : k = n
      · subst hkn
        rw [List.getElem?_append_right (by omega), hl]
        simp [hv]
      · rw [List.getElem?_append_left (by omega)]
        exact hg k (by omega)
    · have hnone : g n = none := by
        rw [← Option.not_isSome_iff_eq_none, hn]
        simp
        omega
      obtain ⟨hl, hg⟩ := ih m (by omega) (fun k hk => h k (by omega))
      simp only [List.filterMap_cons, hnone, List.filterMap_nil, List.append_nil]
      exact ⟨hl, hg⟩

/-- R133's count, and each value at its slot (R131). -/
theorem parseValues_spec (raw : List Byte) :
    (parseValues raw).length = min 6 ((raw.length - 7) / 2) ∧
      ∀ k, k < min 6 ((raw.length - 7) / 2) → (parseValues raw)[k]? = slotValue raw k := by
  refine filterMap_range_prefix (slotValue raw) 6 _ (by omega) fun k hk => ?_
  rw [slotValue_isSome]
  congr 1
  simp only [eq_iff_iff]
  omega

theorem parseValues_length (raw : List Byte) : (parseValues raw).length = min 6 ((raw.length - 7) / 2) :=
  (parseValues_spec raw).1

theorem parseValues_length_le (raw : List Byte) : (parseValues raw).length ≤ 6 := by
  rw [parseValues_length]; omega

/-- Every parsed value is at most 6000 (R132). -/
theorem parseValues_le {raw : List Byte} {v : U16} (h : v ∈ parseValues raw) : v.toNat ≤ 6000 := by
  obtain ⟨k, -, hk⟩ := List.mem_filterMap.mp h
  obtain ⟨lo, hi, -, -, rfl⟩ := slotValue_eq_some.mp hk
  exact clamp_le _

end Sys2Proof.Machine
end

