-- ==== Sys2Proof/Laws/PerInstr.lean ====
section
/-! SUPPORT. Laws made per instruction: the request that encodes an instruction carries the fixed bits of its row of
spec/opcode_table.json, and an unused operand port carries zero. -/

namespace Sys2Proof.Laws.Selector

/-- The fixed bits of a request: OP on the port (R60), the command byte at offset 4 of a frame (R62). -/
def selectBits : Request → Option Nat
  | .port p => some p.op.toNat
  | .frame bytes _ => (bytes[4]?).map BitVec.toNat

/-- The value that spec/opcode_table.json fixes in each row. -/
def rowBits : Instr → Nat
  | .buildWrite _ _ _ => 0b00
  | .buildRead _ _ => 0b01
  | .parse _ => 0b10
  | .checksum _ => 0b11
  | .frameWrite _ _ _ => 0x12
  | .frameRead _ _ _ => 0x11

/-- The encoding of the instruction carries its row's fixed bits. -/
def Statement (i : Instr) : Prop := selectBits (encode i) = some (rowBits i)

theorem buildWrite (dev : Byte) (addr : U16) (vals : List Int) : Statement (.buildWrite dev addr vals) := rfl

theorem buildRead (dev : Byte) (addr : U16) : Statement (.buildRead dev addr) := rfl

theorem parse (raw : List Byte) : Statement (.parse raw) := rfl

theorem checksum (csIn : List Byte) : Statement (.checksum csIn) := rfl

theorem frameWrite (dev : Byte) (addr : U16) (vals : List U16) : Statement (.frameWrite dev addr vals) := by
  simp [Statement, encode, selectBits, Machine.writeFrame, Machine.requestFrame_eq, rowBits, Config.cmdWrite]

theorem frameRead (dev : Byte) (addr : U16) (responseLength : Nat) : Statement (.frameRead dev addr responseLength) := by
  simp [Statement, encode, selectBits, Machine.readFrame, Machine.requestFrame_eq, rowBits, Config.cmdRead]

end Sys2Proof.Laws.Selector
end

