-- ==== Sys2Proof/Laws/Transport.lean ====
section
/-! SUPPORT. What the transport's capabilities and the two frame transactions can do, once for each. -/

namespace Sys2Proof.Machine

@[simp] theorem drawnBytes_length (fixed : List Byte) (draw n : Nat) : (drawnBytes fixed draw n).length = n := by
  simp [drawnBytes]

theorem drawnBytes_getElem? (fixed : List Byte) (draw : Nat) {n i : Nat} (h : i < n) :
    (drawnBytes fixed draw n)[i]? = some (fixed[i]?.getD (Config.transportByte draw i)) := by
  simp [drawnBytes, h]

/-- A queued answer that fixes every byte asked for is the response. -/
theorem drawnBytes_eq (fixed : List Byte) (draw : Nat) : drawnBytes fixed draw fixed.length = fixed := by
  apply List.ext_getElem (by simp)
  intro i h1 h2
  simp [drawnBytes, h2]

/-- A read that succeeds came from an answer with bytes (R151). -/
theorem nextReadAnswer_bytes {s : State} {n : Nat} {r : List Byte} (h : s.nextReadAnswer n = .bytes r) :
    ∃ fixed, s.readAnswers.head?.getD (Config.readAnswer s.draws) = .bytes fixed ∧ r = drawnBytes fixed s.draws n := by
  unfold State.nextReadAnswer at h
  split at h
  · rename_i fixed hf
    exact ⟨fixed, hf, by simpa using h.symm⟩
  · simp at h
  · split at h <;> simp at h

@[simp] theorem nextReadAnswer_transportWrite (s : State) (f : List Byte) (n : Nat) :
    (s.transportWrite f).nextReadAnswer n = State.nextReadAnswer { s with draws := s.draws + 1 } n := rfl

/-- Everything the drain read can do (R154). -/
theorem drainAck_cases (s : State) :
    (∃ r, s.nextReadAnswer 9 = .bytes r ∧ drainAck s = (s.transportRead 9).returnOutcome (.ok none)) ∨
    (s.nextReadAnswer 9 = .transportError ∧ drainAck s = (s.transportRead 9).returnOutcome .okDrainFailed) ∨
    (s.nextReadAnswer 9 = .never ∧ drainAck s = (s.transportRead 9).goTo .blocked) := by
  simp only [drainAck, Config.ackLen]
  cases h : s.nextReadAnswer 9 with
  | bytes r => exact .inl ⟨r, rfl, rfl⟩
  | transportError => exact .inr (.inl ⟨rfl, rfl⟩)
  | never => exact .inr (.inr ⟨rfl, rfl⟩)

/-- Everything the transaction of a write frame can do (R153). -/
theorem sendWriteFrame_cases (f : List Byte) (s : State) :
    (s.nextWriteAnswer = .transportError ∧
      sendWriteFrame f s = (s.transportWrite f).returnOutcome .transportError) ∨
    (s.nextWriteAnswer = .success ∧ sendWriteFrame f s = drainAck (s.transportWrite f)) := by
  cases h : s.nextWriteAnswer with
  | success => exact .inr ⟨rfl, by simp [sendWriteFrame, h]⟩
  | transportError => exact .inl ⟨rfl, by simp [sendWriteFrame, h]⟩

/-- Everything the response read can do (R155). -/
theorem receiveResponse_cases (n : Nat) (s : State) :
    (∃ r, s.nextReadAnswer n = .bytes r ∧ receiveResponse n s = (s.transportRead n).goTo (.received r)) ∨
    (s.nextReadAnswer n = .transportError ∧
      receiveResponse n s = (s.transportRead n).returnOutcome .transportError) ∨
    (s.nextReadAnswer n = .never ∧ receiveResponse n s = (s.transportRead n).goTo .blocked) := by
  simp only [receiveResponse]
  cases h : s.nextReadAnswer n with
  | bytes r => exact .inl ⟨r, rfl, rfl⟩
  | transportError => exact .inr (.inl ⟨rfl, rfl⟩)
  | never => exact .inr (.inr ⟨rfl, rfl⟩)

/-- Everything the transaction of a read frame can do (R155). -/
theorem sendReadFrame_cases (f : List Byte) (n : Nat) (s : State) :
    (s.nextWriteAnswer = .transportError ∧
      sendReadFrame f n s = (s.transportWrite f).returnOutcome .transportError) ∨
    (s.nextWriteAnswer = .success ∧ sendReadFrame f n s = receiveResponse n (s.transportWrite f)) := by
  cases h : s.nextWriteAnswer with
  | success => exact .inr ⟨rfl, by simp [sendReadFrame, h]⟩
  | transportError => exact .inl ⟨rfl, by simp [sendReadFrame, h]⟩

end Sys2Proof.Machine
end

