-- ==== Sys2Proof/Tests/Slice0.lean ====
section
/-! SUPPORT. The model's own tests, their expected results from 95_test_vectors.md or worked out from the rules by hand;
and, for each statement with hypotheses, a concrete case that meets them (`witness_…`). -/

namespace Sys2Proof.Tests

open Sys2Proof.Machine

/-- The machine after reset with a sequence of events to come. -/
def runs (events : List HostEvent) : State := { State.reset with pending := events }

/-- The same, with the transport's answers fixed. -/
def runsWith (events : List HostEvent) (ws : List WriteAnswer) (rs : List ReadAnswer) : State :=
  { State.reset with pending := events, writeAnswers := ws, readAnswers := rs }

/-- The machine after reset with the host in the middle of a host operation, and the reset line of the platform. -/
def midway (task : HostTask) (resets : List Bool) : State := { State.reset with task := task, resetLine := resets }

/-- The state that an outcome goes on with. -/
def after (o : Host.Outcome State Fault Refusal) : State :=
  match o with
  | .next t => t
  | _ => State.reset

/-- What is told of an outcome: that it goes on, or the reason why not. -/
def reason (o : Host.Outcome State Fault Refusal) : Option (Fault ⊕ Refusal) :=
  match o with
  | .next _ => none
  | .fault f => some (.inl f)
  | .refused r => some (.inr r)

/-- A state whose FRAME latch holds V10's read frame. -/
def built : State := after (exec (.buildRead 1 1522) State.reset)

/-- The response of 95_test_vectors.md, section 5. -/
def resp20 : List Byte :=
  [0xAA, 0xAA, 0xAA, 0xAA, 0xAA, 0xAA, 0xAA, 0xE8, 0x03, 0x10, 0x27, 0x70, 0x17, 0x71, 0x17, 0x00, 0x00, 0xFF, 0xFF, 0x55]

/-- V10's frame. -/
def frameV10 : List Byte := [0xEB, 0x90, 0x01, 0x04, 0x11, 0xF2, 0x05, 0x0C, 0x19]

/-- V3's frame. -/
def frameV3 : List Byte := [0xEB, 0x90, 0x02, 0x05, 0x12, 0x34, 0x12, 0x70, 0x17, 0xE6]

/-- V1's frame. -/
def frameV1 : List Byte :=
  [0xEB, 0x90, 0x01, 0x0F, 0x12, 0xF2, 0x05, 0xE8, 0x03, 0xE8, 0x03, 0xE8, 0x03, 0xE8, 0x03, 0xE8, 0x03, 0xE8, 0x03, 0x9B]

/-! ### Well-formedness -/

theorem test_wf_refuses_seven_values : (Instr.frameWrite 1 1522 [1, 1, 1, 1, 1, 1, 1]).wf = false := by decide

theorem test_wf_accepts_six_values : (Instr.frameWrite 1 1522 [1, 1, 1, 1, 1, 1]).wf = true := by decide

/-! ### Decoding: words written out from R60, R64 and R66 -/

theorem test_decode_op00 : decode (.port ⟨0b00, 2, 0x1234, [6000], [9], [9]⟩) = .ok (.buildWrite 2 0x1234 [6000]) := rfl

theorem test_decode_op01 : decode (.port ⟨0b01, 1, 1522, [9], [9], [9]⟩) = .ok (.buildRead 1 1522) := rfl

theorem test_decode_op10 : decode (.port ⟨0b10, 9, 9, [9], [0xAA, 0xE8], [9]⟩) = .ok (.parse [0xAA, 0xE8]) := rfl

theorem test_decode_op11 : decode (.port ⟨0b11, 9, 9, [9], [9], [0xFF, 0x01]⟩) = .ok (.checksum [0xFF, 0x01]) := rfl

theorem test_decode_frame_write_v1 :
    decode (.frame frameV1 0) = .ok (.frameWrite 1 1522 [1000, 1000, 1000, 1000, 1000, 1000]) := by decide

theorem test_decode_frame_read_v10 : decode (.frame frameV10 20) = .ok (.frameRead 1 1522 20) := by decide

/-- V19b: a frame whose last byte is the sum with the sync bytes included is no frame. -/
theorem test_decode_bad_checksum :
    decode (.frame [0xEB, 0x90, 0x01, 0x04, 0x11, 0xF2, 0x05, 0x0C, 0x94] 20) = .error .badChecksum := by decide

/-- Seven bytes are no frame, even with the data length and the sum of a shorter one (R15). -/
theorem test_decode_truncated :
    decode (.frame [0xEB, 0x90, 0x01, 0x02, 0x12, 0x00, 0x15] 0) = .error .truncatedFrame := by decide

/-- A read frame's length-to-read byte is 0x0C (R66). -/
theorem test_decode_bad_payload :
    decode (.frame [0xEB, 0x90, 0x01, 0x04, 0x11, 0xF2, 0x05, 0x0D, 0x1A] 20) = .error .badPayload := by decide

/-! ### The four operations -/

/-- V4: truncation modulo 65536, a negative value among them. -/
theorem test_build_write_v4 : (after (exec (.buildWrite 1 0 [70000, -1, 65535, 65536]) State.reset)).frame.contents =
    [0xEB, 0x90, 0x01, 0x0B, 0x12, 0x00, 0x00, 0x70, 0x11, 0xFF, 0xFF, 0xFF, 0xFF, 0x00, 0x00, 0x9B] := by decide

/-- V8 and P2: a refused build invalidates the frame before it, and STATUS reads 0x08. -/
theorem test_build_write_refused : statusByte (after (exec (.buildWrite 0 0 [0, 0, 0, 0, 0, 0, 0]) built)) = 0x08 ∧
    readLatch (.frameByte 0) (after (exec (.buildWrite 0 0 [0, 0, 0, 0, 0, 0, 0]) built)) =
      .error (.readInvalidLatch (.frameByte 0)) := by decide

/-- V12: the checksum wraps. -/
theorem test_build_read_v12 : (after (exec (.buildRead 0xFF 0xFFFF) State.reset)).frame.contents =
    [0xEB, 0x90, 0xFF, 0x04, 0x11, 0xFF, 0xFF, 0x0C, 0x1E] := by decide

/-- V14: after a refused build, ERR <- NONE and FRAME_VALID <- 1. -/
theorem test_build_read_v14 :
    statusByte (after (exec (.buildRead 1 1522) State.reset.raiseTooManyValues)) = 0x01 := by decide

/-- V25 and V23: offset 18 decides on slot 5; 6000 is kept, 6001 becomes 0. -/
theorem test_parse_v25 : (after (exec (.parse (resp20.take 18)) State.reset)).values.contents = [1000, 0, 6000, 0, 0] ∧
    (after (exec (.parse resp20) State.reset)).values.contents = [1000, 0, 6000, 0, 0, 0] := by decide

/-- P3: a short response after a longer one leaves no value to read. -/
theorem test_parse_short : readLatch (.value 0) (after (exec (.parse (resp20.take 8))
    (after (exec (.parse resp20) State.reset)))) = .error (.readInvalidLatch (.value 0)) := by decide

/-- V17 and V19. -/
theorem test_checksum_wraps : (after (exec (.checksum [0x80, 0x80]) State.reset)).csum.value = 0x00 ∧
    (after (exec (.checksum [0xFF, 0xFF, 0xFF]) State.reset)).csum.value = 0xFD := by decide

/-- P1 step 2: FRAME kept, STATUS reads 0x05. -/
theorem test_checksum_keeps_frame :
    statusByte (after (exec (.checksum [0x01, 0x04, 0x11, 0x0A, 0x06, 0x0C]) built)) = 0x05 := by decide

/-! ### Frames on the wire and the host protocol (P4) -/

/-- P4 step 1': the drain read fails and the write counts as done. -/
theorem test_frame_write_drain_fails :
    (after (exec (.frameWrite 1 1522 [1000, 1000, 1000, 1000, 1000, 1000])
      (runsWith [] [.success] [.transportError]))).outcome = some .okDrainFailed ∧
    (after (exec (.frameWrite 1 1522 [1000, 1000, 1000, 1000, 1000, 1000])
      (runsWith [] [.success] [.transportError]))).traffic = [.write frameV1 .success, .read 9 .transportError] := by
  decide

/-- P4 step 4, the transaction: the response is the host's to PARSE; no latch has changed. -/
theorem test_frame_read_response :
    (after (exec (.frameRead 1 1522 20) (runsWith [] [.success] [.bytes resp20]))).task = .received resp20 ∧
    statusByte (after (exec (.frameRead 1 1522 20) (runsWith [] [.success] [.bytes resp20]))) = 0x00 := by decide

/-- P4 step 4, from the response on: PARSE, then the read-out. -/
theorem test_read_register_values :
    statusByte (after (step (midway (.received resp20) []))) = 0x02 ∧
    (after (step (after (step (midway (.received resp20) []))))).outcome = some (.ok (some [1000, 0, 6000, 0, 0, 0])) := by
  decide

/-- R190, R191: a reset between PARSE and the read-out leaves no value to read (R30). -/
theorem test_reset_before_read_out :
    reason (step (after (step { after (step (midway (.received resp20) [])) with resetLine := [true] }))) =
      some (.inl (.readInvalidLatch .valueCount)) := by decide

/-- P4 step 5: the write fails and no read is made. -/
theorem test_frame_read_write_fails :
    (after (exec (.frameRead 1 1522 20) (runsWith [] [.transportError] []))).traffic =
      [.write frameV10 .transportError] := by decide

/-- P4 step 3. -/
theorem test_unknown_name : (after (step (runs [.readRegister 1 "fingerSet" 20]))).outcome =
    some .configurationError := by decide

/-- P2, between its steps: the host's read of a frame byte faults. -/
theorem test_invalid_read_faults : reason (step (runs [.readLatch (.frameByte 0)])) =
    some (.inl (.readInvalidLatch (.frameByte 0))) := by decide

/-- The words of the opcode table run as the first instruction after reset. -/
theorem test_fetch_word : statusByte (after (step (State.reset.withFetchWord 8 0b11))) = 0x04 ∧
    statusByte (after (step (State.reset.withFetchWord 8 0b01))) = 0x01 := by decide

/-! ### Witnesses: the hypotheses of each statement are met -/

/-- After reset, with a sequence of events and transport answers, the host is free to issue its next event. -/
theorem ready_runsWith (events : List HostEvent) (ws : List WriteAnswer) (rs : List ReadAnswer) :
    (runsWith events ws rs).Ready :=
  ⟨rfl, rfl, State.noReset_of_nil rfl 1⟩

/-- The same with no answer fixed. -/
theorem ready_runs (events : List HostEvent) : (runs events).Ready := ready_runsWith events [] []

/-- A reset that comes only after two steps leaves these two free of it. -/
theorem witness_NoReset : State.NoReset (midway .idle [false, false, true]) 2 := by
  simp [State.NoReset, midway]

theorem witness_PlatformResetClearsValidBitsAndErrOnly :
    (midway (.received resp20) [true, false]).errLegal = true ∧
    (midway (.received resp20) [true, false]).resetLine = true :: [false] := by decide

/-- The three points of a host operation that the statement tells of, each with a reset in this step and none in the
next. -/
theorem witness_ResetInsideAHostOperation :
    State.errLegal { built with task := .writeBuilt, resetLine := [true] } = true ∧
    ({ built with task := .writeBuilt, resetLine := [true] } : State).task = .writeBuilt ∧
    ({ built with task := .readBuilt 20, resetLine := [true] } : State).task = .readBuilt 20 ∧
    (midway (.received resp20) [true]).task = .received resp20 ∧
    (midway .parsed [true]).task = .parsed ∧ (midway .parsed [true]).resetLine = true :: [] ∧
    ([] : List Bool).head? ≠ some true ∧ ([false] : List Bool).head? ≠ some true := by decide

theorem witness_DecodeOfEncodeIsTheInstruction :
    (Instr.frameWrite 1 1522 [1, 2, 3, 4, 5, 6]).wf = true ∧ (Instr.buildWrite 0 0 []).wf = true := by decide

theorem witness_AcceptedBytesAreTheDecodedFrame :
    decode (.frame frameV3 0) = .ok (.frameWrite 2 0x1234 [6000]) ∧
    decode (.frame frameV10 20) = .ok (.frameRead 1 1522 20) := by decide

theorem witness_OtherCommandBytesAreRefused :
    ([0, 0, 0] : List Byte).length ≥ 3 ∧ (0x13 : Byte) ≠ 0x12 ∧ (0x13 : Byte) ≠ 0x11 := by decide

theorem witness_StepRunsTheDecodedInstruction :
    (runs [.request (.frame frameV10 20)]).Ready ∧
    (runs [.request (.frame frameV10 20)]).pending = .request (.frame frameV10 20) :: [] ∧
    decode (.frame frameV10 20) = .ok (.frameRead 1 1522 20) := ⟨ready_runs _, rfl, by decide⟩

theorem witness_FetchWordIsTheNextInstruction :
    State.reset.errLegal = true ∧ decodeTableWord 8 0x12 = some (.frameWrite 0 0 []) := by decide

/-- For every statement that bounds the number of values of BUILD_WRITE or FRAME_WRITE: both sides of the bound of six. -/
theorem witness_value_counts :
    ([1, 2, 3, 4, 5, 6] : List Int).length ≤ 6 ∧ ([] : List Int).length ≤ 6 ∧
    6 < ([1, 2, 3, 4, 5, 6, 7] : List Int).length ∧ ([1, 2, 3, 4, 5, 6] : List U16).length ≤ 6 ∧
    6 < ([1, 2, 3, 4, 5, 6, 7] : List U16).length := by decide

theorem witness_BuildWriteSeesValuesModulo65536 :
    ([65536, -1] : List Int).length ≤ 6 ∧ ([0, 65535] : List Int).length = ([65536, -1] : List Int).length ∧
    ([65536, -1] : List Int).map (· % 65536) = ([0, 65535] : List Int).map (· % 65536) := by decide

/-- The frames of both kinds that the decoder accepts are the ones of witness_AcceptedBytesAreTheDecodedFrame. -/
theorem witness_request_frames : IsRequestFrame frameV10 ∧ IsRequestFrame frameV3 := by
  refine ⟨.inr ⟨1, 1522, ?_⟩, .inl ⟨2, 0x1234, [6000], by decide, ?_⟩⟩
  · unfold IsReadFrame
    decide
  · refine ⟨rfl, rfl, rfl, rfl, rfl, rfl, rfl, rfl, ?_, by decide⟩
    intro k u hk
    match k with
    | 0 =>
      obtain rfl : (6000 : U16) = u := by simpa using hk
      decide
    | k + 1 => simp at hk

theorem witness_FrameLengthIsItsDataLengthPlusFive :
    decode (.frame frameV10 20) = .ok (.frameRead 1 1522 20) ∧
    decode (.frame frameV3 0) = .ok (.frameWrite 2 0x1234 [6000]) ∧ ([1, 2, 3, 4, 5, 6] : List Int).length ≤ 6 := by
  decide

theorem witness_ParseExtractsTheClampedPairs :
    resp20[7 + 2 * 0]? = some 0xE8 ∧ resp20[8 + 2 * 0]? = some 0x03 ∧
    resp20[7 + 2 * 5]? = some 0xFF ∧ resp20[8 + 2 * 5]? = some 0xFF := by decide

theorem witness_ParseLaws :
    (resp20.take 7).length = 7 ∧ ([0, 1, 1000, 5999, 6000, 300] : List U16).length = 6 ∧
    (∀ u ∈ ([0, 1, 1000, 5999, 6000, 300] : List U16), u.toNat ≤ 6000) ∧
    resp20[7 + 2 * 3]? = some 0x71 ∧ resp20[8 + 2 * 3]? = some 0x17 ∧
    6000 < (0x71 : Byte).toNat + 256 * (0x17 : Byte).toNat ∧ (resp20.take 18).length ≤ 18 :=
  ⟨by decide, by decide, by simp, by decide, by decide, by simp, by decide⟩

theorem witness_ParseIgnoresBytesOutside7To18 :
    let other : List Byte := [0x00, 0x11, 0x22, 0x33, 0x44, 0x55, 0x66] ++ (resp20.drop 7).take 12
    19 ≤ resp20.length ∧ 19 ≤ other.length ∧ ∀ j, 7 ≤ j → j ≤ 18 → resp20[j]? = other[j]? := by
  refine ⟨by decide, by decide, fun j h1 h2 => ?_⟩
  interval_cases j <;> decide

theorem witness_ClampedValueAndZeroCannotBeToldApart :
    let zero : List Byte := [0, 0, 0, 0, 0, 0, 0, 0x00, 0x00]
    let high : List Byte := [0, 0, 0, 0, 0, 0, 0, 0x71, 0x17]
    zero.length = high.length ∧ zero[7 + 2 * 0]? = some 0x00 ∧ zero[8 + 2 * 0]? = some 0x00 ∧
    high[7 + 2 * 0]? = some 0x71 ∧ high[8 + 2 * 0]? = some 0x17 ∧
    (0x00 : Byte).toNat + 256 * (0x00 : Byte).toNat = 0 ∧ 6000 < (0x71 : Byte).toNat + 256 * (0x17 : Byte).toNat ∧
    zero[7 + 2 * 1]? = none ∧ high[7 + 2 * 1]? = none := by simp

theorem witness_ReadReturnsTheFieldHeld :
    built.frame.valid = true ∧ 8 < built.frame.len.toNat ∧ built.frame.bytes[8]? = some 0x19 ∧
    (after (exec (.parse resp20) built)).values.valid = true ∧
    5 < (after (exec (.parse resp20) built)).values.count.toNat ∧
    (after (exec (.parse resp20) built)).values.slots[5]? = some 0 ∧
    (after (exec (.checksum []) built)).csum.valid = true := by decide

/-- For the reads that fault: the fields at the end of their range exist, and one read faults, one does not. -/
theorem witness_ReadFaultsExactlyWhereNoValueIsHeld :
    19 < 20 ∧ 5 < 6 ∧ readLatch (.frameByte 9) built = .error (.readInvalidLatch (.frameByte 9)) ∧
    readLatch (.frameByte 8) built = .ok (.frameByte 0x19) := by decide

theorem witness_HostReadStepHasNoSideEffect :
    (runs [.readLatch .status]).Ready ∧ (runs [.readLatch .status]).pending = .readLatch .status :: [] ∧
    readLatch .status (runs [.readLatch .status]) = .ok (.status 0) ∧ (runs [.readLatch .frameLen]).Ready ∧
    (runs [.readLatch .frameLen]).pending = .readLatch .frameLen :: [] ∧
    readLatch .frameLen (runs [.readLatch .frameLen]) = .error (.readInvalidLatch .frameLen) :=
  ⟨ready_runs _, rfl, by decide, ready_runs _, rfl, by decide⟩

/-- For the steps from a response on: the position and the values that are returned. -/
theorem witness_received :
    (midway (.received resp20) []).errLegal = true ∧ (midway (.received resp20) []).task = .received resp20 ∧
    (midway (.received resp20) []).NoReset 2 ∧ (midway (.received resp20) []).NoReset 1 :=
  ⟨by decide, rfl, State.noReset_of_nil rfl 2, State.noReset_of_nil rfl 1⟩

/-- For the two frame transactions: a state for each answer of the write, and for answers of the read. -/
theorem witness_transport_answers :
    (runsWith [] [.transportError] []).nextWriteAnswer = .transportError ∧
    (runsWith [] [.success] [.transportError]).nextWriteAnswer = .success ∧
    State.nextReadAnswer { runsWith [] [.success] [.transportError] with draws := 1 } 9 = .transportError ∧
    State.nextReadAnswer { runsWith [] [.success] [.bytes resp20] with draws := 1 } 9 = .bytes (resp20.take 9) := by
  decide

theorem witness_SuccessfulReadHasExactlyTheLengthAsked :
    (runsWith [] [] [.bytes resp20]).nextReadAnswer 20 = .bytes resp20 ∧
    (runsWith [] [] [.bytes resp20]).readAnswers = .bytes resp20 :: [] ∧ 19 < 20 ∧ 19 < resp20.length := by decide

theorem witness_CatalogHasTheFiveNamesOnly :
    "fingerSet" ≠ "" ∧ "fingerSet" ∉ ["angleSet", "forceSet", "speedSet", "angleAct", "forceAct"] := by decide

theorem witness_UnknownNameIsConfigurationErrorWithoutIO :
    (runs [.writeRegister 1 "fingerSet" [1, 2, 3, 4, 5, 6, 7]]).Ready ∧
    (runs [.writeRegister 1 "fingerSet" [1, 2, 3, 4, 5, 6, 7]]).pending =
      .writeRegister 1 "fingerSet" [1, 2, 3, 4, 5, 6, 7] :: [] ∧
    (runs [.readRegister 1 "fingerSet" 20]).Ready ∧
    (runs [.readRegister 1 "fingerSet" 20]).pending = .readRegister 1 "fingerSet" 20 :: [] ∧
    "fingerSet" ≠ "" ∧ "fingerSet" ∉ ["angleSet", "forceSet", "speedSet", "angleAct", "forceAct"] :=
  ⟨ready_runs _, rfl, ready_runs _, rfl, by decide, by decide⟩

theorem witness_WriteRegisterOfTooManyValuesIsValidationErrorWithoutIO :
    (runs [.writeRegister 1 "speedSet" [1, 2, 3, 4, 5, 6, 7]]).Ready ∧
    (runs [.writeRegister 1 "speedSet" [1, 2, 3, 4, 5, 6, 7]]).NoReset 2 ∧
    "speedSet" ∈ ["angleSet", "forceSet", "speedSet", "angleAct", "forceAct"] ∧
    6 < ([1, 2, 3, 4, 5, 6, 7] : List Int).length ∧
    (runs [.writeRegister 1 "speedSet" [1, 2, 3, 4, 5, 6, 7]]).pending =
      .writeRegister 1 "speedSet" [1, 2, 3, 4, 5, 6, 7] :: [] :=
  ⟨ready_runs _, State.noReset_of_nil rfl 2, by decide, by decide, rfl⟩

theorem witness_WriteRegisterIsBuildWriteThenFrameWrite :
    (runs [.writeRegister 1 "speedSet" [1, 2, 3, 4, 5, 6]]).Ready ∧
    (runs [.writeRegister 1 "speedSet" [1, 2, 3, 4, 5, 6]]).NoReset 2 ∧
    addressOf "speedSet" = .ok (.address (Config.registerAddress .speedSet)) ∧
    ([1, 2, 3, 4, 5, 6] : List Int).length ≤ 6 ∧
    (runs [.writeRegister 1 "speedSet" [1, 2, 3, 4, 5, 6]]).pending =
      .writeRegister 1 "speedSet" [1, 2, 3, 4, 5, 6] :: [] :=
  ⟨ready_runs _, State.noReset_of_nil rfl 2, rfl, by decide, rfl⟩

theorem witness_ReadRegisterIsBuildReadThenFrameRead :
    (runs [.readRegister 1 "angleAct" 20]).Ready ∧ (runs [.readRegister 1 "angleAct" 20]).NoReset 2 ∧
    addressOf "angleAct" = .ok (.address (Config.registerAddress .angleAct)) ∧
    (runs [.readRegister 1 "angleAct" 20]).pending = .readRegister 1 "angleAct" 20 :: [] :=
  ⟨ready_runs _, State.noReset_of_nil rfl 2, rfl, rfl⟩

theorem witness_ReadRegisterReturnsTheParsedValues :
    (runsWith [.readRegister 1 "angleAct" 20] [.success] [.bytes resp20]).Ready ∧
    (runsWith [.readRegister 1 "angleAct" 20] [.success] [.bytes resp20]).NoReset 4 ∧
    addressOf "angleAct" = .ok (.address (Config.registerAddress .angleAct)) ∧
    (runsWith [.readRegister 1 "angleAct" 20] [.success] [.bytes resp20]).pending = .readRegister 1 "angleAct" 20 :: [] ∧
    (runsWith [.readRegister 1 "angleAct" 20] [.success] [.bytes resp20]).writeAnswers = .success :: [] ∧
    (runsWith [.readRegister 1 "angleAct" 20] [.success] [.bytes resp20]).readAnswers = .bytes resp20 :: [] ∧
    resp20.length = 20 :=
  ⟨ready_runsWith _ _ _, State.noReset_of_nil rfl 4, rfl, rfl, rfl, rfl, by decide⟩

theorem witness_EmptyRegisterNameIsRefused :
    (runs [.writeRegister 1 "" []]).Ready ∧ (runs [.writeRegister 1 "" []]).pending = .writeRegister 1 "" [] :: [] ∧
    (runs [.readRegister 1 "" 20]).Ready ∧ (runs [.readRegister 1 "" 20]).pending = .readRegister 1 "" 20 :: [] :=
  ⟨ready_runs _, rfl, ready_runs _, rfl⟩

theorem witness_BlockedHostIssuesNothing :
    (midway .blocked []).errLegal = true ∧ (midway .blocked []).task = .blocked ∧ (midway .blocked []).NoReset 1 :=
  ⟨by decide, rfl, State.noReset_of_nil rfl 1⟩

theorem witness_ReadThatNeverCompletesTimesOutOrBlocks :
    (runsWith [] [.success] [.never]).writeAnswers = .success :: [] ∧
    (runsWith [] [.success] [.never]).readAnswers = .never :: [] := by decide

theorem witness_IdleStepKeepsTheState : (runs []).Ready ∧ (runs []).pending = [] := ⟨ready_runs _, rfl⟩

theorem witness_ReservedErrCodeIsRefused :
    ({ State.reset with err := 2 } : State).err = 2 ∧ ({ State.reset with err := 3 } : State).err = 3 := by decide

/-- A state with a valid frame meets the latch invariant, and a step from it goes on. -/
theorem witness_EveryStepKeepsTheLatchInvariant :
    State.Inv { built with pending := [.request (.port ⟨0b10, 0, 0, [], resp20, []⟩)] } ∧
    reason (step { built with pending := [.request (.port ⟨0b10, 0, 0, [], resp20, []⟩)] }) = none := by
  refine ⟨⟨fun _ => ⟨.inl ?_, ?_, ?_, ?_⟩, fun h => absurd h (by decide), .inl ?_⟩, ?_⟩ <;> decide

/-- A host about to send V10's frame, which it has sent before, over a transport that fails. -/
def sender : State :=
  { built with task := .readBuilt 20, traffic := [.write frameV10 .success], writeAnswers := [.transportError] }

/-- A state with a valid frame that has sent one meets the traffic invariant, and the step that sends the frame in the
latch goes on. -/
theorem witness_EveryStepSendsOnlyRequestFrames :
    State.TrafficInv sender ∧ reason (step sender) = none := by
  have hb : built.frame.contents = frameV10 := by decide
  refine ⟨⟨fun _ => ?_, fun f answer h => ?_⟩, by decide⟩
  · exact hb ▸ witness_request_frames.1
  · simp only [sender, List.mem_singleton, TransportCall.write.injEq] at h
    exact h.1 ▸ witness_request_frames.1

/-- For the statements about every step that goes on, and about one that faults: each way a latch changes and each kind
of read that faults. -/
theorem witness_steps :
    reason (step (runs [.request (.port ⟨0b01, 1, 1522, [], [], []⟩)])) = none ∧
    reason (step (midway (.received resp20) [])) = none ∧ reason (step { built with resetLine := [true] }) = none ∧
    reason (step (runs [.readLatch .csumValue])) = some (.inl (.readInvalidLatch .csumValue)) ∧
    reason (step (midway .writeBuilt [])) = some (.inl (.readInvalidLatch .frameLen)) ∧
    reason (step (midway (.readBuilt 20) [])) = some (.inl (.readInvalidLatch .frameLen)) ∧
    reason (step (midway .parsed [])) = some (.inl (.readInvalidLatch .valueCount)) := by decide

theorem witness_EveryOperationOnThePortCompletes :
    (runs [.request (.port ⟨0b00, 1, 1522, [1, 1, 1, 1, 1, 1, 1], [], []⟩)]).Ready ∧
    (runs [.request (.port ⟨0b00, 1, 1522, [1, 1, 1, 1, 1, 1, 1], [], []⟩)]).pending =
      .request (.port ⟨0b00, 1, 1522, [1, 1, 1, 1, 1, 1, 1], [], []⟩) :: [] := ⟨ready_runs _, rfl⟩

end Sys2Proof.Tests
end

section
/-! PROOFS. The statements about the block's state: which latch each operation writes (R29), and which reads of a latch
fault (R30). -/

namespace Sys2Proof.Machine

/-! ### The meaning of each operation, as an update of the state -/

@[simp] theorem exec_buildWrite_eq (dev : Byte) (addr : U16) (vals : List Int) (s : State) :
    exec (.buildWrite dev addr vals) s = .next (buildWrite dev addr vals s) := rfl

@[simp] theorem exec_buildRead_eq (dev : Byte) (addr : U16) (s : State) :
    exec (.buildRead dev addr) s = .next (buildRead dev addr s) := rfl

@[simp] theorem exec_parse_eq (raw : List Byte) (s : State) : exec (.parse raw) s = .next (parse raw s) := rfl

@[simp] theorem exec_checksum_eq (csIn : List Byte) (s : State) :
    exec (.checksum csIn) s = .next (s.loadCsum (checksum8 csIn)).succeed.accept := rfl

theorem buildWrite_of_le (dev : Byte) (addr : U16) {vals : List Int} (s : State) (h : vals.length ≤ 6) :
    buildWrite dev addr vals s =
      { s with
        frame := s.frame.load (writeFrame dev addr (vals.map truncate16)), err := 0, position := s.position + 1 } := by
  obtain ⟨-, hloads⟩ | ⟨hmany, -⟩ := buildWrite_cases dev addr vals s
  · exact hloads
  · omega

theorem buildWrite_of_lt (dev : Byte) (addr : U16) {vals : List Int} (s : State) (h : 6 < vals.length) :
    buildWrite dev addr vals s =
      { s with frame := { s.frame with valid := false }, err := 1, position := s.position + 1 } := by
  obtain ⟨hfew, -⟩ | ⟨-, hraises⟩ := buildWrite_cases dev addr vals s
  · omega
  · exact hraises

theorem buildRead_eq (dev : Byte) (addr : U16) (s : State) :
    buildRead dev addr s =
      { s with frame := s.frame.load (readFrame dev addr), err := 0, position := s.position + 1 } := rfl

theorem parse_eq (raw : List Byte) (s : State) :
    parse raw s = { s with values := s.values.load (parseValues raw), err := 0, position := s.position + 1 } := rfl

theorem State.loadCsum_succeed_accept (s : State) (c : Byte) :
    (s.loadCsum c).succeed.accept = { s with csum := ⟨true, c⟩, err := 0, position := s.position + 1 } := rfl

/-- Settles O26: each operation is one record update, of its own latch, ERR and the position. -/
theorem eachOperationWritesItsOwnLatch : Obligations.EachOperationWritesItsOwnLatch := by
  intro s dev addr vals bs
  refine ⟨fun hfew => ?_, fun hmany => ?_, ?_, ?_, ?_⟩
  · exact ⟨_, _, by rw [exec_buildWrite_eq, buildWrite_of_le dev addr s hfew], s.frame.load_valid _⟩
  · exact ⟨_, by rw [exec_buildWrite_eq, buildWrite_of_lt dev addr s hmany]⟩
  · exact ⟨_, _, by rw [exec_buildRead_eq, buildRead_eq], s.frame.load_valid _⟩
  · exact ⟨_, _, by rw [exec_parse_eq, parse_eq], s.values.load_valid _⟩
  · exact ⟨_, _, by rw [exec_checksum_eq, State.loadCsum_succeed_accept], rfl⟩

/-! ### The host's read of one field -/

@[simp] theorem readLatch_status (s : State) : readLatch .status s = .ok (.status (statusByte s)) := rfl

theorem readLatch_frameLen_faults_iff (s : State) :
    readLatch .frameLen s = .error (.readInvalidLatch .frameLen) ↔ s.frame.valid = false := by
  cases hv : s.frame.valid <;> simp [readLatch, hv]

theorem readLatch_valueCount_faults_iff (s : State) :
    readLatch .valueCount s = .error (.readInvalidLatch .valueCount) ↔ s.values.valid = false := by
  cases hv : s.values.valid <;> simp [readLatch, hv]

theorem readLatch_csumValue_faults_iff (s : State) :
    readLatch .csumValue s = .error (.readInvalidLatch .csumValue) ↔ s.csum.valid = false := by
  cases hv : s.csum.valid <;> simp [readLatch, hv]

/-- Inside FRAME_BYTES, only the offsets from FRAME_LEN on hold no value (R21). -/
theorem FrameLatch.contents_getElem?_eq_none_iff (l : FrameLatch) {i : Nat} (h : i < 20) :
    l.contents[i]? = none ↔ l.len.toNat ≤ i := by
  rw [l.contents_getElem?, Vector.getElem?_eq_getElem h]
  split
  · next hin => simpa using hin
  · next hout => simpa using hout

/-- Inside VALUE, only the slots from VALUE_COUNT on hold no value (R22). -/
theorem ValuesLatch.contents_getElem?_eq_none_iff (l : ValuesLatch) {k : Nat} (h : k < 6) :
    l.contents[k]? = none ↔ l.count.toNat ≤ k := by
  rw [l.contents_getElem?, Vector.getElem?_eq_getElem h]
  split
  · next hin => simpa using hin
  · next hout => simpa using hout

theorem readLatch_frameByte_faults_iff (i : Nat) (s : State) :
    readLatch (.frameByte i) s = .error (.readInvalidLatch (.frameByte i)) ↔
      s.frame.valid = false ∨ s.frame.contents[i]? = none := by
  cases hv : s.frame.valid <;> cases hc : s.frame.contents[i]? <;> simp [readLatch, hv, hc]

theorem readLatch_value_faults_iff (k : Nat) (s : State) :
    readLatch (.value k) s = .error (.readInvalidLatch (.value k)) ↔
      s.values.valid = false ∨ s.values.contents[k]? = none := by
  cases hv : s.values.valid <;> cases hc : s.values.contents[k]? <;> simp [readLatch, hv, hc]

/-- Settles O30, field by field: a byte or value read faults where the latch's contents end, which is at its length or
count for every offset and slot that exists. -/
theorem readFaultsExactlyWhereNoValueIsHeld : Obligations.ReadFaultsExactlyWhereNoValueIsHeld := by
  intro s
  refine ⟨⟨_, readLatch_status s⟩, readLatch_frameLen_faults_iff s, fun i hi => ?_,
    readLatch_valueCount_faults_iff s, fun k hk => ?_, readLatch_csumValue_faults_iff s⟩
  · rw [readLatch_frameByte_faults_iff, s.frame.contents_getElem?_eq_none_iff hi]
  · rw [readLatch_value_faults_iff, s.values.contents_getElem?_eq_none_iff hk]

end Sys2Proof.Machine
end

section
/-! PROOFS. The statements about the encoding: the OP select on the port (R60), and the request frames that the two
builds leave in the FRAME latch (R64, R66). -/

namespace Sys2Proof.Machine

/-! ### The OP select -/

/-- Settles O4: each OP code selects its own row of the decoder, whose operands are projections of its own ports. -/
theorem opSelectNamesOperationAndItsPorts : Obligations.OpSelectNamesOperationAndItsPorts := by
  rintro ⟨op, dev, addr, vals, raw, csIn⟩
  refine ⟨?_, ?_, ?_, ?_⟩
  all_goals
    rintro rfl
    rfl

/-! ### A request frame by offset -/

/-- The seven bytes before the payload (R62). -/
theorem requestFrame_header (dev dataLength cmd : Byte) (addr : U16) (payload : List Byte) :
    (requestFrame dev dataLength cmd addr payload).take 7 =
      [0xEB, 0x90, dev, dataLength, cmd, BitVec.ofNat 8 (addr.toNat % 256), BitVec.ofNat 8 (addr.toNat / 256)] := by
  rw [requestFrame_eq, loByte_eq_ofNat, hiByte_eq_ofNat]
  rfl

theorem requestFrame_getElem?_header (dev dataLength cmd : Byte) (addr : U16) (payload : List Byte) {i : Nat}
    (h : i < 7) :
    (requestFrame dev dataLength cmd addr payload)[i]? =
      [0xEB, 0x90, dev, dataLength, cmd, BitVec.ofNat 8 (addr.toNat % 256), BitVec.ofNat 8 (addr.toNat / 256)][i]? := by
  rw [← requestFrame_header dev dataLength cmd addr payload, List.getElem?_take_of_lt h]

/-- The payload starts at offset 7 (R62). -/
theorem requestFrame_getElem?_payload (dev dataLength cmd : Byte) (addr : U16) {payload : List Byte} {j : Nat}
    (h : j < payload.length) :
    (requestFrame dev dataLength cmd addr payload)[7 + j]? = payload[j]? := by
  rw [requestFrame_eq, Nat.add_comm]
  simp only [List.getElem?_cons_succ]
  exact List.getElem?_append_left h

/-- The bytes that the checksum covers: offset 2 to the end of the payload (R68). -/
theorem requestFrame_drop_take (dev dataLength cmd : Byte) (addr : U16) (payload : List Byte) :
    ((requestFrame dev dataLength cmd addr payload).drop 2).take (5 + payload.length) =
      dev :: dataLength :: cmd :: loByte addr :: hiByte addr :: payload := by
  rw [requestFrame_eq, Nat.add_comm]
  simp

theorem checksum8_eq_ofNat (bs : List Byte) : checksum8 bs = BitVec.ofNat 8 ((bs.map BitVec.toNat).sum % 256) :=
  BitVec.eq_of_toNat_eq (by simp [checksum8_toNat])

/-- The checksum byte follows the payload, and is the sum modulo 256 of the bytes from offset 2 to there (R68). -/
theorem requestFrame_getElem?_checksum (dev dataLength cmd : Byte) (addr : U16) (payload : List Byte) :
    (requestFrame dev dataLength cmd addr payload)[7 + payload.length]? =
      some (BitVec.ofNat 8 (((((requestFrame dev dataLength cmd addr payload).drop 2).take
        (5 + payload.length)).map BitVec.toNat).sum % 256)) := by
  rw [requestFrame_drop_take, ← checksum8_eq_ofNat, requestFrame_eq, Nat.add_comm]
  simp

/-! ### The two frames meet their offset tables -/

/-- The encoder of write frames builds the frame of R64, for every number of values. -/
theorem isWriteFrame_writeFrame (dev : Byte) (addr : U16) (us : List U16) :
    IsWriteFrame dev addr us (writeFrame dev addr us) := by
  have header {i : Nat} (h : i < 7) := requestFrame_getElem?_header dev (BitVec.ofNat 8 (2 * us.length + 3))
    Config.cmdWrite addr (us.flatMap toBytes) h
  have payload {j : Nat} (h : j < 2 * us.length) := requestFrame_getElem?_payload dev
    (BitVec.ofNat 8 (2 * us.length + 3)) Config.cmdWrite addr ((length_flatMap_toBytes us).symm ▸ h)
  have checksum := requestFrame_getElem?_checksum dev (BitVec.ofNat 8 (2 * us.length + 3))
    Config.cmdWrite addr (us.flatMap toBytes)
  rw [length_flatMap_toBytes] at checksum
  refine ⟨writeFrame_length dev addr us, header (by decide), header (by decide), header (by decide),
    header (by decide), header (by decide), header (by decide), header (by decide), fun k u hu => ?_, checksum⟩
  obtain ⟨hk, -⟩ := List.getElem?_eq_some_iff.mp hu
  obtain ⟨hlo, hhi⟩ := getElem?_flatMap_toBytes us k
  rw [hu, Option.map_some] at hlo hhi
  constructor
  · rw [← loByte_eq_ofNat, ← hlo]
    exact payload (by omega)
  · rw [← hiByte_eq_ofNat, ← hhi, show 8 + 2 * k = 7 + (2 * k + 1) by omega]
    exact payload (by omega)

/-- The encoder of read frames builds the frame of R66. -/
theorem isReadFrame_readFrame (dev : Byte) (addr : U16) : IsReadFrame dev addr (readFrame dev addr) := by
  have header {i : Nat} (h : i < 7) := requestFrame_getElem?_header dev Config.readDataLength Config.cmdRead addr
    [Config.readLengthByte] h
  exact ⟨readFrame_length dev addr, header (by decide), header (by decide), header (by decide), header (by decide),
    header (by decide), header (by decide), header (by decide),
    requestFrame_getElem?_payload dev _ _ addr (payload := [Config.readLengthByte]) (j := 0) (by decide),
    requestFrame_getElem?_checksum dev _ _ addr [Config.readLengthByte]⟩

/-! ### What a build leaves -/

theorem FrameLatch.load_len_toNat (l : FrameLatch) {f : List Byte} (h : f.length ≤ 20) :
    (l.load f).len.toNat = f.length := by
  rw [l.load_len, BitVec.toNat_ofNat]
  omega

/-- A build writes nothing outside the block (R29). -/
theorem State.sameOutside_build (s : State) (l : FrameLatch) (e : BitVec 2) (n : Nat) :
    s.SameOutside { s with frame := l, err := e, position := n } :=
  ⟨rfl, rfl, rfl, rfl, rfl, rfl, rfl, rfl, rfl⟩

/-- Settles O11: BUILD_WRITE loads the write frame of the truncated values, which fits the latch. -/
theorem buildWriteBuildsTheWriteFrame : Obligations.BuildWriteBuildsTheWriteFrame := by
  intro dev addr vals s hfew
  have hfits : (writeFrame dev addr (vals.map truncate16)).length ≤ 20 :=
    writeFrame_length_le dev addr (by simpa using hfew)
  have htrunc : (vals.map fun v => BitVec.ofNat 16 (v % 65536).toNat) = vals.map truncate16 :=
    List.map_congr_left fun v _ => (truncate16_eq_ofNat v).symm
  refine ⟨_, (exec_buildWrite_eq ..).trans (congrArg _ (buildWrite_of_le dev addr s hfew)), s.frame.load_valid _,
    ?len, ?frame, rfl, rfl, rfl, s.sameOutside_build ..⟩
  case len => rw [s.frame.load_len_toNat hfits, writeFrame_length, List.length_map]
  case frame =>
    rw [htrunc, s.frame.load_contents hfits]
    exact isWriteFrame_writeFrame dev addr _

/-- Settles O15: BUILD_READ loads the read frame, whatever the operands. -/
theorem buildReadBuildsTheReadFrame : Obligations.BuildReadBuildsTheReadFrame := by
  intro dev addr s
  have hfits : (readFrame dev addr).length ≤ 20 := by simp
  refine ⟨_, (exec_buildRead_eq ..).trans (congrArg _ (buildRead_eq dev addr s)), s.frame.load_valid _,
    ?len, ?frame, rfl, rfl, rfl, s.sameOutside_build ..⟩
  case len => rw [s.frame.load_len_toNat hfits, readFrame_length]
  case frame =>
    rw [s.frame.load_contents hfits]
    exact isReadFrame_readFrame dev addr

end Sys2Proof.Machine
end

section
/-! PROOFS. The statements about the frame codec: the refusal of BUILD_WRITE (R102), the checksum byte that it puts at
the end of a frame (R104), and CHECKSUM (R107). -/

namespace Sys2Proof.Machine

/-! ### BUILD_WRITE -/

/-- Settles O12: the refusal is one record update, in which no operand of BUILD_WRITE occurs. -/
theorem buildWriteRefusesMoreThanSixValues : Obligations.BuildWriteRefusesMoreThanSixValues := by
  intro s
  refine ⟨s.position + 1, fun dev addr vals hmany => ?_⟩
  rw [exec_buildWrite_eq, buildWrite_of_lt dev addr s hmany]

/-- The last byte that the latch holds stands at FRAME_LEN - 1 of FRAME_BYTES (R21). -/
theorem FrameLatch.contents_getElem?_last (l : FrameLatch) (h : 0 < l.len.toNat) :
    l.contents[l.len.toNat - 1]? = l.bytes[l.len.toNat - 1]? := by
  rw [l.contents_getElem?, if_pos (by omega)]

/-- A run of bytes that ends within FRAME_LEN is the same in the frame held and in FRAME_BYTES (R21). -/
theorem FrameLatch.take_drop_contents (l : FrameLatch) {i n : Nat} (h : i + n ≤ l.len.toNat) :
    (l.contents.drop i).take n = (l.bytes.toList.drop i).take n := by
  rw [FrameLatch.contents, List.drop_take, List.take_take, Nat.min_eq_left (by omega)]

/-- The last byte of a write frame is the checksum of the bytes from offset 2 to the one before it (R64, R68). -/
theorem IsWriteFrame.getElem?_checksum {dev : Byte} {addr : U16} {us : List U16} {f : List Byte}
    (h : IsWriteFrame dev addr us f) :
    f[7 + 2 * us.length]? = some (checksum8 ((f.drop 2).take (5 + 2 * us.length))) := by
  obtain ⟨-, -, -, -, -, -, -, -, -, hlast⟩ := h
  rw [hlast, checksum8_eq_ofNat]

/-- Settles O13: the latch holds a write frame, whose last byte and checksummed bytes lie within FRAME_LEN and so can be
read off FRAME_BYTES. -/
theorem buildWriteChecksumLaw : Obligations.BuildWriteChecksumLaw := by
  intro dev addr vals s hfew
  obtain ⟨t, hexec, -, hlen, hframe, -⟩ := buildWriteBuildsTheWriteFrame dev addr vals s hfew
  have hlast := hframe.getElem?_checksum
  rw [List.length_map, show 7 + 2 * vals.length = t.frame.len.toNat - 1 by omega,
    show 5 + 2 * vals.length = t.frame.len.toNat - 3 by omega, t.frame.contents_getElem?_last (by omega),
    t.frame.take_drop_contents (by omega)] at hlast
  exact ⟨t, hexec, hlen, hlast⟩

/-! ### CHECKSUM -/

/-- CHECKSUM writes nothing outside the block (R29). -/
theorem State.sameOutside_checksum (s : State) (c : Byte) : s.SameOutside (s.loadCsum c).succeed.accept :=
  ⟨rfl, rfl, rfl, rfl, rfl, rfl, rfl, rfl, rfl⟩

/-- Settles O18: the value that CHECKSUM loads is the sum of its operand modulo 256 (`checksum8_toNat`). -/
theorem checksumWritesTheSumModulo256 : Obligations.ChecksumWritesTheSumModulo256 := by
  intro cs s
  exact ⟨_, exec_checksum_eq cs s, rfl, checksum8_toNat cs, rfl, rfl, rfl, s.sameOutside_checksum _⟩

end Sys2Proof.Machine
end

section
/-! PROOFS. The statements about the response parser: the values that PARSE extracts (R130 to R133), what it leaves
unchanged (R29, R135), its laws (R136), and the bytes that it reads (R134). -/

namespace Sys2Proof.Machine

/-! ### The values that PARSE extracts -/

/-- A value up to the limit, the limit included, passes the clamp (R132). -/
theorem clamp_of_le {v : U16} (h : v.toNat ≤ 6000) : clamp v = v :=
  BitVec.eq_of_toNat_eq (by rw [clamp_toNat, if_neg (by omega)])

/-- A value above the limit is replaced by 0 (R132). -/
theorem clamp_of_lt {v : U16} (h : 6000 < v.toNat) : clamp v = 0 :=
  BitVec.eq_of_toNat_eq (by rw [clamp_toNat, if_pos h]; rfl)

/-- A pair at offsets 7 + 2k and 8 + 2k is value k, after the clamp: no slot before a present one is missing (R131). -/
theorem parseValues_getElem?_of_pair {raw : List Byte} {k : Nat} {lo hi : Byte} (hk : k < 6)
    (hlo : raw[7 + 2 * k]? = some lo) (hhi : raw[8 + 2 * k]? = some hi) :
    (parseValues raw)[k]? = some (clamp (ofBytes lo hi)) := by
  obtain ⟨hin, -⟩ := List.getElem?_eq_some_iff.mp hhi
  obtain ⟨-, hslot⟩ := parseValues_spec raw
  rw [hslot k (by omega)]
  exact slotValue_eq_some.mpr ⟨lo, hi, hlo, hhi, rfl⟩

/-! ### What PARSE leaves -/

/-- After PARSE the host reads exactly the values extracted. -/
@[simp] theorem parse_values_contents (raw : List Byte) (s : State) :
    (parse raw s).values.contents = parseValues raw :=
  s.values.load_contents (parseValues_length_le raw)

/-- R133's count fits the three bits of VALUE_COUNT. -/
theorem parse_values_count_toNat (raw : List Byte) (s : State) :
    (parse raw s).values.count.toNat = min 6 ((raw.length - 7) / 2) := by
  rw [parse_eq, ValuesLatch.load_count, BitVec.toNat_ofNat, parseValues_length]
  omega

/-- PARSE writes nothing outside the block (R29). -/
theorem State.sameOutside_parse (s : State) (raw : List Byte) : s.SameOutside (parse raw s) :=
  ⟨rfl, rfl, rfl, rfl, rfl, rfl, rfl, rfl, rfl⟩

/-- Settles O21: value k is the clamped pair of its slot; the rest is one record update of the VALUES latch and ERR. -/
theorem parseExtractsTheClampedPairs : Obligations.ParseExtractsTheClampedPairs := by
  intro raw s
  refine ⟨_, exec_parse_eq raw s, s.values.load_valid _, parse_values_count_toNat raw s,
    fun k lo hi hk hlo hhi => ⟨clamp (ofBytes lo hi), ?contents, ?value⟩, rfl, rfl, rfl, s.sameOutside_parse raw⟩
  case contents => rw [parse_values_contents, parseValues_getElem?_of_pair hk hlo hhi]
  case value => rw [clamp_toNat, ofBytes_toNat]

/-- Settles O22: what PARSE writes to ERR, VALUES_VALID and VALUE_COUNT is part of what O21 says of every response. -/
theorem parseNeverRaisesAnError : Obligations.ParseNeverRaisesAnError := by
  intro raw s
  obtain ⟨t, hexec, hvalid, hcount, -, herr, -⟩ := parseExtractsTheClampedPairs raw s
  exact ⟨t, hexec, herr, hvalid, hcount⟩

/-! ### The laws of PARSE -/

/-- The two bytes of a value as R136's encoder writes them are `toBytes`. -/
theorem toBytes_eq_setWidth (u : U16) : [u.setWidth 8, (u >>> 8).setWidth 8] = toBytes u := by
  have hlo : u.setWidth 8 = loByte u := BitVec.eq_of_toNat_eq (by simp)
  have hhi : (u >>> 8).setWidth 8 = hiByte u := by
    apply BitVec.eq_of_toNat_eq
    have := u.isLt
    simp only [BitVec.toNat_setWidth, BitVec.toNat_ushiftRight, Nat.shiftRight_eq_div_pow, hiByte_toNat]
    omega
  rw [hlo, hhi, toBytes]

/-- Behind a header of seven bytes, a payload's byte j stands at offset 7 + j. -/
theorem getElem?_header_append_payload {header payload : List Byte} (trailer : List Byte) {j : Nat}
    (hheader : header.length = 7) (hj : j < payload.length) :
    (header ++ payload ++ trailer)[7 + j]? = payload[j]? := by
  rw [List.append_assoc, ← hheader, List.getElem?_append_right (by omega), Nat.add_sub_cancel_left,
    List.getElem?_append_left hj]

/-- R136's round trip: six values of at most 6000, encoded behind a header of seven bytes, are extracted in order. -/
theorem parseValues_encoded {header : List Byte} (trailer : List Byte) {us : List U16} (hheader : header.length = 7)
    (hsix : us.length = 6) (hle : ∀ u ∈ us, u.toNat ≤ 6000) :
    parseValues (header ++ us.flatMap toBytes ++ trailer) = us := by
  have hpayload := length_flatMap_toBytes us
  have hlength : (parseValues (header ++ us.flatMap toBytes ++ trailer)).length = us.length := by
    simp only [parseValues_length, List.length_append]
    omega
  refine List.ext_getElem? fun k => ?_
  by_cases hk : k < us.length
  · obtain ⟨hlo, hhi⟩ := getElem?_flatMap_toBytes us k
    rw [← getElem?_header_append_payload trailer hheader (by omega)] at hlo hhi
    rw [List.getElem?_eq_getElem hk] at hlo hhi ⊢
    rw [show 7 + (2 * k + 1) = 8 + 2 * k by omega] at hhi
    rw [parseValues_getElem?_of_pair (by omega) hlo hhi, ofBytes_loByte_hiByte, clamp_of_le (hle _ (us.getElem_mem hk))]
  · rw [List.getElem?_eq_none (by omega), List.getElem?_eq_none (by omega)]

/-- Settles O23, law by law: the round trip of encoded values, the clamp of a pair above 6000, and R133's count at a
length below 19. -/
theorem parseLaws : Obligations.ParseLaws := by
  refine ⟨fun header trailer us s hheader hsix hle => ⟨_, exec_parse_eq _ s, ?roundTrip⟩,
    fun raw k lo hi s hk hlo hhi habove => ⟨_, exec_parse_eq raw s, ?clamped⟩,
    fun raw s hshort => ⟨_, exec_parse_eq raw s, ?count, ?fewer, rfl⟩⟩
  case roundTrip =>
    simp only [toBytes_eq_setWidth]
    rw [parse_values_contents, parseValues_encoded trailer hheader hsix hle]
  case clamped =>
    rw [parse_values_contents, parseValues_getElem?_of_pair hk hlo hhi, clamp_of_lt (by rwa [ofBytes_toNat])]
  case count | fewer =>
    rw [parse_values_contents, parseValues_length]
    omega

/-! ### The bytes that PARSE reads -/

/-- Slot k reads the two bytes of its own pair and nothing else (R131). -/
theorem slotValue_congr {raw raw' : List Byte} {k : Nat} (hlo : raw[7 + 2 * k]? = raw'[7 + 2 * k]?)
    (hhi : raw[8 + 2 * k]? = raw'[8 + 2 * k]?) : slotValue raw k = slotValue raw' k :=
  Option.ext fun v => by simp only [slotValue_eq_some, hlo, hhi]

/-- The six slots together read offsets 7 to 18 (R134). -/
theorem parseValues_congr {raw raw' : List Byte} (h : ∀ j, 7 ≤ j → j ≤ 18 → raw[j]? = raw'[j]?) :
    parseValues raw = parseValues raw' := by
  refine List.filterMap_congr fun k hk => ?_
  have hslot : k < 6 := List.mem_range.mp hk
  exact slotValue_congr (h _ (by omega) (by omega)) (h _ (by omega) (by omega))

/-- Settles O24: the response occurs in the state after PARSE only through the values extracted. Its length matters no
further than whether offsets 7 to 18 lie inside it, on which the two responses agree already. -/
theorem parseIgnoresBytesOutside7To18 : Obligations.ParseIgnoresBytesOutside7To18 := by
  intro raw raw' s _ hagree
  refine ⟨_, exec_parse_eq raw s, ?_⟩
  rw [exec_parse_eq, parse_eq, parse_eq, parseValues_congr hagree]

end Sys2Proof.Machine
end

section
/-! PROOFS. The statements about the host protocol: the register catalog and the lookup of a name in it (R158). -/

namespace Sys2Proof.Machine

/-! ### The register catalog -/

/-- A name that is not empty is looked up by the scan (R158). -/
theorem addressOf_of_ne_empty {name : String} (h : name ≠ "") : addressOf name = .ok (scanCatalog name) :=
  if_neg h

/-- No entry of the catalog has the empty name, which the lookup refuses (U7). -/
theorem name_ne_empty_of_mem_catalog : ∀ entry ∈ catalog, entry.1 ≠ "" := by decide

/-- The names of the catalog are distinct, so no entry hides a later one from the linear scan. -/
theorem catalog_find?_of_mem :
    ∀ entry ∈ catalog, (catalog.find? fun other => decide (other.1 = entry.1)) = some entry := by decide

/-- The scan of an entry's name gives the address of that entry's register. -/
theorem scanCatalog_of_mem {entry : String × RegisterName} (h : entry ∈ catalog) :
    scanCatalog entry.1 = .address (Config.registerAddress entry.2) := by
  rw [scanCatalog, catalog_find?_of_mem entry h]

/-- The scan finds nothing exactly when no entry carries the name. -/
theorem scanCatalog_eq_notFound_iff {name : String} :
    scanCatalog name = .notFound ↔ name ∉ catalog.map Prod.fst := by
  have hnone : (catalog.find? fun entry => decide (entry.1 = name)) = none ↔ name ∉ catalog.map Prod.fst := by
    simp only [List.find?_eq_none, decide_eq_true_eq, List.mem_map, not_exists, not_and]
  rw [← hnone, scanCatalog]
  cases catalog.find? fun entry => decide (entry.1 = name) with
  | none => simp
  | some entry => simp

/-- The lookup of a catalog entry's name gives the address of its register. -/
theorem addressOf_of_mem_catalog {name : String} {r : RegisterName} (h : (name, r) ∈ catalog) :
    addressOf name = .ok (.address (Config.registerAddress r)) := by
  rw [addressOf_of_ne_empty (name_ne_empty_of_mem_catalog _ h), scanCatalog_of_mem h]

/-- The lookup of any other name but the empty one gives NotFound. -/
theorem addressOf_of_not_mem_catalog {name : String} (hne : name ≠ "") (h : name ∉ catalog.map Prod.fst) :
    addressOf name = .ok .notFound := by
  rw [addressOf_of_ne_empty hne, scanCatalog_eq_notFound_iff.mpr h]

/-- Settles O38: the five names are entries of the catalog, and the list of names is the catalog's first column. -/
theorem catalogHasTheFiveNamesOnly : Obligations.CatalogHasTheFiveNamesOnly :=
  ⟨addressOf_of_mem_catalog (by decide), addressOf_of_mem_catalog (by decide), addressOf_of_mem_catalog (by decide),
    addressOf_of_mem_catalog (by decide), addressOf_of_mem_catalog (by decide),
    fun _ hne hnot => addressOf_of_not_mem_catalog hne hnot⟩

end Sys2Proof.Machine
end

section
/-! PROOFS. The statement about the platform's reset (R191): what a block reads like whose valid bits and ERR are clear,
and what a reset leaves unchanged. -/

namespace Sys2Proof.Machine

/-- STATUS holds nothing but the three valid bits and ERR (R26), so it reads 0x00 when these are clear. -/
theorem statusByte_of_cleared {s : State} (hframe : s.frame.valid = false) (hvalues : s.values.valid = false)
    (hcsum : s.csum.valid = false) (herr : s.err = errNone) : statusByte s = 0x00 := by
  rw [statusByte, hframe, hvalues, hcsum, herr]
  rfl

/-- A latch whose valid bit is clear yields none of its fields to the host (R30). -/
theorem readLatch_faults_of_invalid {s : State} (hframe : s.frame.valid = false) (hvalues : s.values.valid = false)
    (hcsum : s.csum.valid = false) {f : LatchField} (hf : f ≠ .status) :
    readLatch f s = .error (.readInvalidLatch f) := by
  cases f with
  | status => exact absurd rfl hf
  | frameLen => exact (readLatch_frameLen_faults_iff s).mpr hframe
  | frameByte i => exact (readLatch_frameByte_faults_iff i s).mpr (.inl hframe)
  | valueCount => exact (readLatch_valueCount_faults_iff s).mpr hvalues
  | value k => exact (readLatch_value_faults_iff k s).mpr (.inl hvalues)
  | csumValue => exact (readLatch_csumValue_faults_iff s).mpr hcsum

/-- Settles O2: the step is `resetBlock` with the reset line moved on; it clears the valid bits and ERR, from which both
read-outs follow, and updates no other field. -/
theorem platformResetClearsValidBitsAndErrOnly : Obligations.PlatformResetClearsValidBitsAndErrOnly := by
  intro s later hlegal hreset
  refine ⟨_, step_eq_reset hlegal hreset, ?status, fun f hf => ?fields,
    rfl, rfl, rfl, rfl, rfl, rfl, rfl, rfl, rfl, rfl⟩
  case status => exact statusByte_of_cleared rfl rfl rfl rfl
  case fields => exact readLatch_faults_of_invalid rfl rfl rfl hf

end Sys2Proof.Machine
end

section
/-! PROOFS. The statements about the encoding of requests: the decoder of request frames accepts exactly the frames of
R64 and R66, so decoding undoes encoding, and the bytes accepted are the frame of the operands decoded. -/

namespace Sys2Proof.Machine

/-! ### The decoder of request frames -/

/-- The checks that the decoder makes on eight bytes or more, in its order (log 8): the bytes before the payload, the
payload, and the checksum byte behind it (R62). -/
theorem decodeFrame_eq (s0 s1 dev dataLength cmd lo hi c : Byte) (payload : List Byte) (n : Nat) :
    decodeFrame (s0 :: s1 :: dev :: dataLength :: cmd :: lo :: hi :: (payload ++ [c])) n =
      if s0 ≠ Config.sync0 ∨ s1 ≠ Config.sync1 then .error .badSync
      else if cmd ≠ Config.cmdWrite ∧ cmd ≠ Config.cmdRead then .error .unknownCommand
      else if payload.length + 8 ≠ dataLength.toNat + 5 then .error .badDataLength
      else if c ≠ checksum8 (dev :: dataLength :: cmd :: lo :: hi :: payload) then .error .badChecksum
      else decodePayload dev (ofBytes lo hi) cmd payload n := by
  cases payload with
  | nil => simp [decodeFrame]
  | cons b rest =>
    have hdrop : (b :: (rest ++ [c])).dropLast = b :: rest := List.dropLast_concat (l₁ := b :: rest)
    simp [decodeFrame, List.getLast?_cons, hdrop, Nat.add_assoc]

/-- Eight bytes or more are seven bytes, a payload, and one last byte. -/
theorem exists_payload_of_length {bytes : List Byte} (h : 8 ≤ bytes.length) :
    ∃ s0 s1 dev dataLength cmd lo hi payload c,
      bytes = s0 :: s1 :: dev :: dataLength :: cmd :: lo :: hi :: (payload ++ [c]) := by
  match bytes with
  | s0 :: s1 :: dev :: dataLength :: cmd :: lo :: hi :: b :: rest =>
    exact ⟨s0, s1, dev, dataLength, cmd, lo, hi, (b :: rest).dropLast, (b :: rest).getLast (by simp),
      by rw [List.dropLast_append_getLast]⟩

/-- Fewer than eight bytes are no frame (R15). -/
theorem length_of_decodeFrame {bytes : List Byte} {n : Nat} {i : Instr} (h : decodeFrame bytes n = .ok i) :
    8 ≤ bytes.length := by
  unfold decodeFrame at h
  split at h
  · simp
  · simp at h

/-- A request frame with a known command byte and the right data length is decoded by its payload. -/
theorem decodeFrame_requestFrame (dev dataLength cmd : Byte) (addr : U16) (payload : List Byte) (n : Nat)
    (hcmd : cmd = Config.cmdWrite ∨ cmd = Config.cmdRead) (hlen : payload.length + 3 = dataLength.toNat) :
    decodeFrame (requestFrame dev dataLength cmd addr payload) n = decodePayload dev addr cmd payload n := by
  rw [requestFrame_eq, decodeFrame_eq, if_neg (by simp), if_neg (by tauto), if_neg (by omega), if_neg (by simp),
    ofBytes_loByte_hiByte]

/-- Bytes that the decoder accepts are a request frame with a known command byte and the right data length, whose
payload it accepts. -/
theorem exists_requestFrame_of_decodeFrame {bytes : List Byte} {n : Nat} {i : Instr}
    (h : decodeFrame bytes n = .ok i) :
    ∃ dev dataLength cmd addr payload, bytes = requestFrame dev dataLength cmd addr payload ∧
      (cmd = Config.cmdWrite ∨ cmd = Config.cmdRead) ∧ payload.length + 3 = dataLength.toNat ∧
      decodePayload dev addr cmd payload n = .ok i := by
  obtain ⟨s0, s1, dev, dataLength, cmd, lo, hi, payload, c, rfl⟩ := exists_payload_of_length (length_of_decodeFrame h)
  rw [decodeFrame_eq] at h
  split_ifs at h with hsync hcmd hlen hsum
  obtain ⟨rfl, rfl⟩ : s0 = Config.sync0 ∧ s1 = Config.sync1 := by tauto
  obtain rfl := not_not.mp hsum
  exact ⟨dev, dataLength, cmd, ofBytes lo hi, payload, by rw [requestFrame_eq, loByte_ofBytes, hiByte_ofBytes],
    by tauto, by omega, h⟩

/-- The payloads that the two commands accept (R64, R66). -/
theorem decodePayload_eq_ok_iff {dev cmd : Byte} {addr : U16} {payload : List Byte} {n : Nat} {i : Instr}
    (hcmd : cmd = Config.cmdWrite ∨ cmd = Config.cmdRead) :
    decodePayload dev addr cmd payload n = .ok i ↔
      (cmd = Config.cmdWrite ∧ ∃ us, us.length ≤ 6 ∧ payload = us.flatMap toBytes ∧ i = .frameWrite dev addr us) ∨
      (cmd = Config.cmdRead ∧ payload = [Config.readLengthByte] ∧ i = .frameRead dev addr n) := by
  have hne : Config.cmdWrite ≠ Config.cmdRead := by decide
  rcases hcmd with rfl | rfl
  case inl =>
    rw [decodePayload, if_neg hne]
    simp only [hne, false_and, or_false, true_and]
    constructor
    · intro h
      split at h
      · next us hus =>
        split_ifs at h with hle
        exact ⟨us, hle, eq_flatMap_toBytes_of_toU16s hus, (Except.ok.inj h).symm⟩
      · simp at h
    · rintro ⟨us, hle, rfl, rfl⟩
      simp [Config.maxValues, hle]
  case inr =>
    rw [decodePayload, if_pos rfl]
    by_cases hp : payload = [Config.readLengthByte]
    · simp [hp, hne.symm, eq_comm (a := i)]
    · simp [hp, hne.symm]

/-- The decoder accepts exactly the write frames of at most six values and the read frames, each as the frame
instruction of its operands. -/
theorem decodeFrame_eq_ok_iff {bytes : List Byte} {n : Nat} {i : Instr} :
    decodeFrame bytes n = .ok i ↔
      (∃ dev addr us, us.length ≤ 6 ∧ i = .frameWrite dev addr us ∧ bytes = writeFrame dev addr us) ∨
      (∃ dev addr, i = .frameRead dev addr n ∧ bytes = readFrame dev addr) := by
  constructor
  · intro h
    obtain ⟨dev, dataLength, cmd, addr, payload, rfl, hcmd, hlen, hpayload⟩ := exists_requestFrame_of_decodeFrame h
    obtain ⟨rfl, us, hle, rfl, rfl⟩ | ⟨rfl, rfl, rfl⟩ := (decodePayload_eq_ok_iff hcmd).mp hpayload
    · rw [length_flatMap_toBytes] at hlen
      obtain rfl : dataLength = BitVec.ofNat 8 (2 * us.length + 3) := by rw [hlen]; simp
      exact .inl ⟨dev, addr, us, hle, rfl, rfl⟩
    · obtain rfl : dataLength = Config.readDataLength := BitVec.eq_of_toNat_eq hlen.symm
      exact .inr ⟨dev, addr, rfl, rfl⟩
  · rintro (⟨dev, addr, us, hle, rfl, rfl⟩ | ⟨dev, addr, rfl, rfl⟩)
    · rw [writeFrame, decodeFrame_requestFrame]
      · exact (decodePayload_eq_ok_iff (.inl rfl)).mpr (.inl ⟨rfl, us, hle, rfl, rfl⟩)
      · exact .inl rfl
      · rw [length_flatMap_toBytes, BitVec.toNat_ofNat]
        omega
    · rw [readFrame, decodeFrame_requestFrame]
      · exact (decodePayload_eq_ok_iff (.inr rfl)).mpr (.inr ⟨rfl, rfl, rfl⟩)
      · exact .inr rfl
      · rfl

theorem decode_writeFrame (dev : Byte) (addr : U16) {us : List U16} (n : Nat) (h : us.length ≤ 6) :
    decode (.frame (writeFrame dev addr us) n) = .ok (.frameWrite dev addr us) :=
  decodeFrame_eq_ok_iff.mpr (.inl ⟨dev, addr, us, h, rfl, rfl⟩)

theorem decode_readFrame (dev : Byte) (addr : U16) (n : Nat) :
    decode (.frame (readFrame dev addr) n) = .ok (.frameRead dev addr n) :=
  decodeFrame_eq_ok_iff.mpr (.inr ⟨dev, addr, rfl, rfl⟩)

/-! ### The round trips -/

/-- Settles O5: a port request is decoded by its OP, and a frame by `decode_writeFrame` or `decode_readFrame`. -/
theorem decodeOfEncodeIsTheInstruction : Obligations.DecodeOfEncodeIsTheInstruction := by
  intro i hwf
  cases i with
  | buildWrite dev addr vals => rfl
  | buildRead dev addr => rfl
  | parse raw => rfl
  | checksum csIn => rfl
  | frameWrite dev addr us => exact decode_writeFrame dev addr 0 (of_decide_eq_true hwf)
  | frameRead dev addr n => exact decode_readFrame dev addr n

/-- Settles O6: accepted bytes are the encoder's own frame of the operands decoded, which meets the offset table. -/
theorem acceptedBytesAreTheDecodedFrame : Obligations.AcceptedBytesAreTheDecodedFrame := by
  intro bytes n i h
  obtain ⟨dev, addr, us, hle, rfl, rfl⟩ | ⟨dev, addr, rfl, rfl⟩ := decodeFrame_eq_ok_iff.mp h
  · exact ⟨decide_eq_true hle, .inl ⟨dev, addr, us, rfl, hle, isWriteFrame_writeFrame dev addr us⟩⟩
  · exact ⟨rfl, .inr ⟨dev, addr, rfl, isReadFrame_readFrame dev addr⟩⟩

/-! ### The frames that the builds leave -/

theorem map_truncate16_eq (vals : List Int) :
    (vals.map fun v => BitVec.ofNat 16 (v % 65536).toNat) = vals.map truncate16 :=
  List.map_congr_left fun v _ => (truncate16_eq_ofNat v).symm

/-- After an accepted BUILD_WRITE the latch holds the write frame of the truncated values. -/
theorem buildWrite_frame_contents (dev : Byte) (addr : U16) {vals : List Int} (s : State) (h : vals.length ≤ 6) :
    (buildWrite dev addr vals s).frame.contents = writeFrame dev addr (vals.map truncate16) := by
  rw [buildWrite_of_le dev addr s h]
  exact s.frame.load_contents (writeFrame_length_le dev addr (by simpa using h))

/-- After BUILD_READ the latch holds the read frame. -/
@[simp] theorem buildRead_frame_contents (dev : Byte) (addr : U16) (s : State) :
    (buildRead dev addr s).frame.contents = readFrame dev addr :=
  s.frame.load_contents (by simp)

/-- Settles O16: the latch holds the encoder's own frame of the same operands, and that decodes to them. -/
theorem builtFrameDecodesToItsFrameInstruction : Obligations.BuiltFrameDecodesToItsFrameInstruction := by
  refine ⟨fun dev addr vals s n hfew => ⟨_, exec_buildWrite_eq dev addr vals s, ?_⟩,
    fun dev addr s n => ⟨_, exec_buildRead_eq dev addr s, ?_⟩⟩
  · rw [buildWrite_frame_contents dev addr s hfew, map_truncate16_eq]
    exact decode_writeFrame dev addr n (by simpa using hfew)
  · rw [buildRead_frame_contents]
    exact decode_readFrame dev addr n

/-- The frames of the encoder are request frames. -/
theorem isRequestFrame_writeFrame (dev : Byte) (addr : U16) {us : List U16} (h : us.length ≤ 6) :
    IsRequestFrame (writeFrame dev addr us) :=
  .inl ⟨dev, addr, us, h, isWriteFrame_writeFrame dev addr us⟩

theorem isRequestFrame_readFrame (dev : Byte) (addr : U16) : IsRequestFrame (readFrame dev addr) :=
  .inr ⟨dev, addr, isReadFrame_readFrame dev addr⟩

/-- R69 for the frames of R64 and R66: up to six values the data length fits its byte. -/
theorem IsRequestFrame.length_eq {f : List Byte} (h : IsRequestFrame f) :
    ∃ b, f[3]? = some b ∧ f.length = b.toNat + 5 := by
  obtain ⟨dev, addr, us, hle, hlen, -, -, -, hb, -⟩ | ⟨dev, addr, hlen, -, -, -, hb, -⟩ := h
  · exact ⟨_, hb, by rw [hlen, BitVec.toNat_ofNat]; omega⟩
  · exact ⟨_, hb, hlen⟩

/-- Settles O17: accepted bytes and built frames are request frames, and these have the length that R69 gives. -/
theorem frameLengthIsItsDataLengthPlusFive : Obligations.FrameLengthIsItsDataLengthPlusFive := by
  refine ⟨fun bytes n i h => ?_, fun dev addr vals s hfew => ?_, fun dev addr s => ?_⟩
  · obtain ⟨dev, addr, us, hle, -, rfl⟩ | ⟨dev, addr, -, rfl⟩ := decodeFrame_eq_ok_iff.mp h
    · exact (isRequestFrame_writeFrame dev addr hle).length_eq
    · exact (isRequestFrame_readFrame dev addr).length_eq
  · obtain ⟨t, hexec, -, hlen, hframe, -⟩ := buildWriteBuildsTheWriteFrame dev addr vals s hfew
    obtain ⟨b, hb, hlength⟩ := IsRequestFrame.length_eq (.inl ⟨dev, addr, _, by simpa using hfew, hframe⟩)
    obtain ⟨hcontents, -⟩ := hframe
    exact ⟨t, b, hexec, hb, by rw [hlen, ← hlength, hcontents, List.length_map], hlength⟩
  · obtain ⟨t, hexec, -, hlen, hframe, -⟩ := buildReadBuildsTheReadFrame dev addr s
    obtain ⟨b, hb, hlength⟩ := IsRequestFrame.length_eq (.inr ⟨dev, addr, hframe⟩)
    obtain ⟨hcontents, -⟩ := hframe
    exact ⟨t, b, hexec, hb, by rw [hlen, ← hlength, hcontents], hlength⟩

/-! ### Refused bytes, and words written out from the spec -/

/-- Settles O7: with eight bytes or more and the sync bytes in place, the command byte is the next check. -/
theorem otherCommandBytesAreRefused : Obligations.OtherCommandBytesAreRefused := by
  intro dev len cmd rest n hlong hwrite hread
  obtain ⟨s0, s1, d, l, c, lo, hi, payload, last, hbytes⟩ :=
    exists_payload_of_length (bytes := 0xEB :: 0x90 :: dev :: len :: cmd :: rest) (by simp only [List.length_cons]; omega)
  rw [decode, hbytes, decodeFrame_eq]
  simp only [List.cons.injEq] at hbytes
  obtain ⟨rfl, rfl, -, -, rfl, -⟩ := hbytes
  rw [if_neg (by decide), if_pos ⟨hwrite, hread⟩]

/-- Settles O8: each word is evaluated. -/
theorem specWordsDecodeToTheirInstructions : Obligations.SpecWordsDecodeToTheirInstructions := by
  refine ⟨?_, ?_, ?_, ?_, ?_, ?_, ?_, ?_⟩
  all_goals decide

end Sys2Proof.Machine
end

section
/-! PROOFS. The statements about the four operations: what BUILD_WRITE sees of its values (R103), the checksum's
arithmetic (R100, R108), what a clamp hides (R27), and the operations as functions of their operands (R31, R46). -/

namespace Sys2Proof.Machine

/-! ### What BUILD_WRITE sees of its values -/

/-- A write frame determines its values: they are what the decoder reads from it. -/
theorem writeFrame_inj {dev : Byte} {addr : U16} {us us' : List U16} (h : us.length ≤ 6) (h' : us'.length ≤ 6) :
    writeFrame dev addr us = writeFrame dev addr us' ↔ us = us' := by
  refine ⟨fun heq => ?_, congrArg _⟩
  have hdecode := (decode_writeFrame dev addr 0 h).symm.trans (heq ▸ decode_writeFrame dev addr 0 h')
  simpa using hdecode

/-- The truncated value as an integer is the residue modulo 65536. -/
theorem truncate16_toNat (v : Int) : ((truncate16 v).toNat : Int) = v % 65536 := by
  rw [truncate16, BitVec.toNat_ofInt]
  omega

/-- Lists of values are truncated alike exactly when their residues modulo 65536 agree. -/
theorem map_truncate16_eq_iff (vals vals' : List Int) :
    vals.map truncate16 = vals'.map truncate16 ↔ vals.map (· % 65536) = vals'.map (· % 65536) := by
  constructor
  · intro h
    simpa only [List.map_map, Function.comp_def, truncate16_toNat] using
      congrArg (List.map fun u : U16 => (u.toNat : Int)) h
  · intro h
    simpa only [List.map_map, Function.comp_def, ← truncate16_eq_ofNat] using
      congrArg (List.map fun r : Int => BitVec.ofNat 16 r.toNat) h

/-- Settles O14: the frame held determines the truncated values and is determined by them. -/
theorem buildWriteSeesValuesModulo65536 : Obligations.BuildWriteSeesValuesModulo65536 := by
  intro dev addr vals vals' s hfew hlength
  have hfew' : vals'.length ≤ 6 := by omega
  refine ⟨_, _, exec_buildWrite_eq dev addr vals s, exec_buildWrite_eq dev addr vals' s, ?_⟩
  rw [buildWrite_frame_contents dev addr s hfew, buildWrite_frame_contents dev addr s hfew',
    writeFrame_inj (by simpa using hfew) (by simpa using hfew'), map_truncate16_eq_iff]

/-! ### The checksum -/

@[simp] theorem checksum8_cons (b : Byte) (bs : List Byte) : checksum8 (b :: bs) = b + checksum8 bs := by
  apply BitVec.eq_of_toNat_eq
  simp [checksum8, byteSum]

/-- Adding byte after byte to an accumulator of eight bits adds the checksum. -/
theorem foldl_add_eq_add_checksum8 (bs : List Byte) (acc : Byte) : bs.foldl (· + ·) acc = acc + checksum8 bs := by
  induction bs generalizing acc with
  | nil => simp [checksum8, byteSum]
  | cons b bs ih => rw [List.foldl_cons, ih, checksum8_cons, BitVec.add_assoc]

/-- Settles O19: the fold from zero is the checksum (`foldl_add_eq_add_checksum8`). -/
theorem checksumTruncatesAtEachAddition : Obligations.ChecksumTruncatesAtEachAddition := by
  intro cs s
  refine ⟨_, exec_checksum_eq cs s, ?_⟩
  rw [foldl_add_eq_add_checksum8]
  exact (BitVec.zero_add _).symm

/-- Settles O20: both builds leave a frame of the form of R62, whose last byte is the checksum (`requestFrame_getLast?`). -/
theorem checksumOfABuiltFrameIsItsLastByte : Obligations.ChecksumOfABuiltFrameIsItsLastByte := by
  intro s dev addr vals hfew
  refine ⟨⟨_, _, exec_buildWrite_eq dev addr vals s, exec_checksum_eq _ _, ?_⟩,
    ⟨_, _, exec_buildRead_eq dev addr s, exec_checksum_eq _ _, ?_⟩⟩
  · rw [buildWrite_frame_contents dev addr s hfew]
    exact requestFrame_getLast? ..
  · rw [buildRead_frame_contents]
    exact requestFrame_getLast? ..

/-! ### What a clamp hides -/

/-- A pair that is 0 or above the limit is the value 0 (R132). -/
theorem clamp_ofBytes_eq_zero {lo hi : Byte}
    (h : lo.toNat + 256 * hi.toNat = 0 ∨ 6000 < lo.toNat + 256 * hi.toNat) : clamp (ofBytes lo hi) = 0 := by
  rw [← ofBytes_toNat] at h
  obtain hzero | habove := h
  · rw [clamp_of_le (by omega)]
    exact BitVec.eq_of_toNat_eq hzero
  · exact clamp_of_lt habove

/-- Slot k holds no value where the response ends before its second byte (R131). -/
theorem slotValue_eq_none {raw : List Byte} {k : Nat} (h : raw.length ≤ 8 + 2 * k) : slotValue raw k = none := by
  rw [← Option.not_isSome_iff_eq_none, slotValue_isSome, decide_eq_true_iff]
  omega

/-- Settles O25, slot by slot: the pairs of a present slot are clamped to the same value, and the slots present are the
same at the same length. -/
theorem clampedValueAndZeroCannotBeToldApart : Obligations.ClampedValueAndZeroCannotBeToldApart := by
  intro raw raw' s hlength hpairs
  have hslot : ∀ k, k < 6 → slotValue raw k = slotValue raw' k := by
    intro k hk
    by_cases hin : 8 + 2 * k < raw.length
    · have hlo : 7 + 2 * k < raw.length := by omega
      have hlo' := List.getElem?_eq_getElem (hlength ▸ hlo)
      have hhi' := List.getElem?_eq_getElem (hlength ▸ hin)
      have hpair := hpairs k _ _ _ _ hk (List.getElem?_eq_getElem hlo) (List.getElem?_eq_getElem hin) hlo' hhi'
      rw [slotValue_eq_some.mpr ⟨_, _, List.getElem?_eq_getElem hlo, List.getElem?_eq_getElem hin, rfl⟩,
        slotValue_eq_some.mpr ⟨_, _, hlo', hhi', rfl⟩]
      obtain ⟨hloEq, hhiEq⟩ | ⟨hzero, hzero'⟩ := hpair
      · rw [hloEq, hhiEq]
      · rw [clamp_ofBytes_eq_zero hzero, clamp_ofBytes_eq_zero hzero']
    · rw [slotValue_eq_none (by omega), slotValue_eq_none (by omega)]
  have hvalues : parseValues raw = parseValues raw' :=
    List.filterMap_congr fun k hk => hslot k (List.mem_range.mp hk)
  refine ⟨_, exec_parse_eq raw s, ?_⟩
  rw [exec_parse_eq, parse_eq, parse_eq, hvalues]

/-! ### What BUILD_READ and PARSE do to each field of the block -/

section
variable (dev : Byte) (addr : U16) (raw : List Byte) (s : State)

theorem buildRead_frame : (buildRead dev addr s).frame = s.frame.load (readFrame dev addr) := rfl
@[simp] theorem buildRead_values : (buildRead dev addr s).values = s.values := rfl
@[simp] theorem buildRead_csum : (buildRead dev addr s).csum = s.csum := rfl
@[simp] theorem buildRead_err : (buildRead dev addr s).err = 0 := rfl

@[simp] theorem parse_frame : (parse raw s).frame = s.frame := rfl
theorem parse_values : (parse raw s).values = s.values.load (parseValues raw) := rfl
@[simp] theorem parse_csum : (parse raw s).csum = s.csum := rfl
@[simp] theorem parse_err : (parse raw s).err = 0 := rfl
@[simp] theorem parse_position : (parse raw s).position = s.position + 1 := rfl

end

/-! ### The operations as functions of their operands -/

/-- What the host reads of the FRAME latch is its valid bit and its contents (R21, R30). -/
theorem readFrameBytes_congr {s t : State} (hvalid : s.frame.valid = t.frame.valid)
    (hcontents : s.frame.contents = t.frame.contents) : readFrameBytes s = readFrameBytes t := by
  rw [readFrameBytes, readFrameBytes, hvalid, hcontents]

theorem readLatch_frameByte_congr {s t : State} (hvalid : s.frame.valid = t.frame.valid)
    (hcontents : s.frame.contents = t.frame.contents) (i : Nat) :
    readLatch (.frameByte i) s = readLatch (.frameByte i) t := by
  rw [readLatch, readLatch, hvalid, hcontents]

/-- A frame latch that holds no value answers every byte read with the same fault (R30). -/
theorem readLatch_frameByte_of_invalid {s : State} (h : s.frame.valid = false) (i : Nat) :
    readLatch (.frameByte i) s = .error (.readInvalidLatch (.frameByte i)) :=
  (readLatch_frameByte_faults_iff i s).mpr (.inl h)

theorem readFrameBytes_of_invalid {s : State} (h : s.frame.valid = false) :
    readFrameBytes s = .error (.readInvalidLatch .frameLen) := by
  simp [readFrameBytes, h]

/-- After BUILD_WRITE, from any two states, the host reads the same frame, or none, and the same ERR. -/
theorem buildWrite_reads_eq (dev : Byte) (addr : U16) (vals : List Int) (s s' : State) :
    readFrameBytes (buildWrite dev addr vals s) = readFrameBytes (buildWrite dev addr vals s') ∧
    (buildWrite dev addr vals s).err = (buildWrite dev addr vals s').err ∧
    ∀ i, readLatch (.frameByte i) (buildWrite dev addr vals s) =
      readLatch (.frameByte i) (buildWrite dev addr vals s') := by
  by_cases hfew : vals.length ≤ 6
  · have hcontents : (buildWrite dev addr vals s).frame.contents = (buildWrite dev addr vals s').frame.contents := by
      rw [buildWrite_frame_contents dev addr s hfew, buildWrite_frame_contents dev addr s' hfew]
    have hvalid : (buildWrite dev addr vals s).frame.valid = (buildWrite dev addr vals s').frame.valid := by
      rw [buildWrite_of_le dev addr s hfew, buildWrite_of_le dev addr s' hfew, s.frame.load_valid, s'.frame.load_valid]
    refine ⟨readFrameBytes_congr hvalid hcontents, ?_, readLatch_frameByte_congr hvalid hcontents⟩
    rw [buildWrite_of_le dev addr s hfew, buildWrite_of_le dev addr s' hfew]
  · have hmany : 6 < vals.length := by omega
    rw [buildWrite_of_lt dev addr s hmany, buildWrite_of_lt dev addr s' hmany]
    refine ⟨?_, rfl, fun i => ?_⟩
    · rw [readFrameBytes_of_invalid rfl, readFrameBytes_of_invalid rfl]
    · rw [readLatch_frameByte_of_invalid rfl, readLatch_frameByte_of_invalid rfl]

/-- Settles O27, operation by operation: the contents loaded, the valid bit and ERR do not depend on the state. -/
theorem resultsDependOnOperandsAlone : Obligations.ResultsDependOnOperandsAlone := by
  intro s s' dev addr vals bs
  refine ⟨⟨_, _, exec_buildWrite_eq .., exec_buildWrite_eq .., buildWrite_reads_eq dev addr vals s s'⟩,
    ⟨_, _, exec_buildRead_eq .., exec_buildRead_eq .., ?read, ?err⟩,
    ⟨_, _, exec_parse_eq .., exec_parse_eq .., ?values, ?valid, ?parseErr⟩,
    ⟨_, _, exec_checksum_eq .., exec_checksum_eq .., rfl, rfl⟩⟩
  case read => rw [readFrameBytes_buildRead, readFrameBytes_buildRead]
  case values => rw [parse_values_contents, parse_values_contents]
  case valid => simp [parse_values]
  case err | parseErr => simp

/-- BUILD_WRITE again with the same operands leaves the block alone: it loads the same frame, or refuses again. -/
theorem buildWrite_again_sameBlock (dev : Byte) (addr : U16) (vals : List Int) (s : State) :
    (buildWrite dev addr vals s).SameBlock (buildWrite dev addr vals (buildWrite dev addr vals s)) := by
  by_cases hfew : vals.length ≤ 6
  · have hfirst := buildWrite_of_le dev addr s hfew
    rw [buildWrite_of_le dev addr (buildWrite dev addr vals s) hfew]
    refine ⟨?_, rfl, rfl, ?_⟩
    · rw [hfirst]
      exact s.frame.load_load _
    · rw [hfirst]
  · have hmany : 6 < vals.length := by omega
    have hfirst := buildWrite_of_lt dev addr s hmany
    rw [buildWrite_of_lt dev addr (buildWrite dev addr vals s) hmany]
    refine ⟨?_, rfl, rfl, ?_⟩
    · rw [hfirst]
    · rw [hfirst]

theorem buildRead_again_sameBlock (dev : Byte) (addr : U16) (s : State) :
    (buildRead dev addr s).SameBlock (buildRead dev addr (buildRead dev addr s)) := by
  simp [State.SameBlock, buildRead_frame, FrameLatch.load_load]

theorem parse_again_sameBlock (raw : List Byte) (s : State) : (parse raw s).SameBlock (parse raw (parse raw s)) := by
  simp [State.SameBlock, parse_values, ValuesLatch.load_load]

/-- Settles O28, for each of the four operations that a port can select: a second load of a latch changes nothing. -/
theorem operationsAreIdempotent : Obligations.OperationsAreIdempotent := by
  intro s p
  obtain ⟨-, hp⟩ | ⟨-, hp⟩ | ⟨-, hp⟩ | ⟨-, hp⟩ := decodePorts_cases p
  all_goals rw [hp]
  · exact ⟨_, _, exec_buildWrite_eq .., exec_buildWrite_eq .., buildWrite_again_sameBlock ..⟩
  · exact ⟨_, _, exec_buildRead_eq .., exec_buildRead_eq .., buildRead_again_sameBlock ..⟩
  · exact ⟨_, _, exec_parse_eq .., exec_parse_eq .., parse_again_sameBlock ..⟩
  · exact ⟨_, _, exec_checksum_eq .., exec_checksum_eq .., rfl, rfl, rfl, rfl⟩

/-! ### The host's reads -/

/-- STATUS is a concatenation of its fields (R26), and these are finitely many bits. -/
theorem statusBits : ∀ (frame values csum : Bool) (err : BitVec 2),
    let b : BitVec 8 := (0#3 ++ err) ++ BitVec.ofBool csum ++ BitVec.ofBool values ++ BitVec.ofBool frame
    b.getLsbD 0 = frame ∧ b.getLsbD 1 = values ∧ b.getLsbD 2 = csum ∧ b.extractLsb' 3 2 = err ∧
      b.extractLsb' 5 3 = 0 := by
  decide

/-- Settles O29: STATUS is that concatenation of the state's own valid bits and ERR. -/
theorem statusShowsValidBitsAndErr : Obligations.StatusShowsValidBitsAndErr := by
  intro s
  exact ⟨_, readLatch_status s, statusBits s.frame.valid s.values.valid s.csum.valid s.err⟩

/-- Settles O31: below a latch's length or count its contents are the raw fields. -/
theorem readReturnsTheFieldHeld : Obligations.ReadReturnsTheFieldHeld := by
  intro s
  refine ⟨fun hvalid => ?_, fun i b hvalid hi hb => ?_, fun hvalid => ?_, fun k v hvalid hk hv => ?_, fun hvalid => ?_⟩
  · rw [readLatch, if_pos hvalid]
  · have hheld : s.frame.contents[i]? = some b := by rw [s.frame.contents_getElem?, if_pos hi, hb]
    rw [readLatch, hvalid, hheld]
  · rw [readLatch, if_pos hvalid]
  · have hheld : s.values.contents[k]? = some v := by rw [s.values.contents_getElem?, if_pos hk, hv]
    rw [readLatch, hvalid, hheld]
  · rw [readLatch, if_pos hvalid]

/-- Settles O1: at reset the valid bits and ERR are clear, from which both read-outs follow. -/
theorem resetReadsStatusZeroAndNothingElse : Obligations.ResetReadsStatusZeroAndNothingElse := by
  refine ⟨rfl, rfl, rfl, rfl, ?_, fun f hf => readLatch_faults_of_invalid rfl rfl rfl hf⟩
  rw [readLatch_status, statusByte_of_cleared rfl rfl rfl rfl]

end Sys2Proof.Machine
end

section
/-! PROOFS. The statements about the request frames on the wire (log 6): what the transaction of a frame does to the
host and the transport (R150 to R155), and that the block has no part in it. -/

namespace Sys2Proof.Machine

/-! ### A transaction leaves the block alone and carries one frame -/

/-- From `s` to `t` the traffic grows by one write of `f`, with one read behind it if that write succeeded. -/
def State.Carries (f : List Byte) (s t : State) : Prop :=
  t.traffic = s.traffic ++ [.write f .transportError] ∨
    ∃ n a, t.traffic = s.traffic ++ [.write f .success, .read n a]

/-- `t` comes from `s` by the transaction of frame `f`, which keeps the block, the position, the sequence and what the
last latch read returned. -/
def State.Transacts (f : List Byte) (s t : State) : Prop :=
  s.SameBlock t ∧ t.position = s.position ∧ t.pending = s.pending ∧ t.readOut = s.readOut ∧ s.Carries f t

/-- A failed write returns at once (R150). -/
theorem transacts_of_failed_write {f : List Byte} {s : State} (h : s.nextWriteAnswer = .transportError)
    (o : HostOutcome) : s.Transacts f ((s.transportWrite f).returnOutcome o) := by
  simp [State.Transacts, State.Carries, State.SameBlock, h]

/-- After a successful write and one read, the host returns an outcome. -/
theorem transacts_of_returned_read {f : List Byte} {s : State} (h : s.nextWriteAnswer = .success) (n : Nat)
    (o : HostOutcome) : s.Transacts f (((s.transportWrite f).transportRead n).returnOutcome o) := by
  simp [State.Transacts, State.Carries, State.SameBlock, h]

/-- After a successful write and one read, the host goes on to another point, or is blocked. -/
theorem transacts_of_continued_read {f : List Byte} {s : State} (h : s.nextWriteAnswer = .success) (n : Nat)
    (k : HostTask) : s.Transacts f (((s.transportWrite f).transportRead n).goTo k) := by
  simp [State.Transacts, State.Carries, State.SameBlock, h]

theorem sendWriteFrame_transacts (f : List Byte) (s : State) : s.Transacts f (sendWriteFrame f s) := by
  obtain ⟨hw, ht⟩ | ⟨hw, ht⟩ := sendWriteFrame_cases f s
  · exact ht ▸ transacts_of_failed_write hw _
  · rw [ht]
    obtain ⟨r, -, hd⟩ | ⟨-, hd⟩ | ⟨-, hd⟩ := drainAck_cases (s.transportWrite f)
    · exact hd ▸ transacts_of_returned_read hw 9 _
    · exact hd ▸ transacts_of_returned_read hw 9 _
    · exact hd ▸ transacts_of_continued_read hw 9 _

theorem sendReadFrame_transacts (f : List Byte) (n : Nat) (s : State) : s.Transacts f (sendReadFrame f n s) := by
  obtain ⟨hw, ht⟩ | ⟨hw, ht⟩ := sendReadFrame_cases f n s
  · exact ht ▸ transacts_of_failed_write hw _
  · rw [ht]
    obtain ⟨r, -, hd⟩ | ⟨-, hd⟩ | ⟨-, hd⟩ := receiveResponse_cases n (s.transportWrite f)
    · exact hd ▸ transacts_of_continued_read hw n _
    · exact hd ▸ transacts_of_returned_read hw n _
    · exact hd ▸ transacts_of_continued_read hw n _

/-! ### FRAME_WRITE and FRAME_READ -/

theorem exec_frameWrite_of_le (dev : Byte) (addr : U16) {us : List U16} (s : State) (h : us.length ≤ 6) :
    exec (.frameWrite dev addr us) s = .next (sendWriteFrame (writeFrame dev addr us) s) :=
  congrArg _ (if_neg (Nat.not_lt.mpr h))

theorem exec_frameWrite_of_lt (dev : Byte) (addr : U16) {us : List U16} (s : State) (h : 6 < us.length) :
    exec (.frameWrite dev addr us) s = .next (s.returnOutcome .validationError) :=
  congrArg _ (if_pos h)

@[simp] theorem exec_frameRead_eq (dev : Byte) (addr : U16) (n : Nat) (s : State) :
    exec (.frameRead dev addr n) s = .next (sendReadFrame (readFrame dev addr) n s) := rfl

/-- Settles O36: the model's arm for more than six values returns before the transaction. -/
theorem frameWriteOfTooManyValuesDoesNoIO : Obligations.FrameWriteOfTooManyValuesDoesNoIO :=
  fun dev addr _ s hmany => exec_frameWrite_of_lt dev addr s hmany

/-- A successful read has the length asked for (R151). -/
theorem length_of_nextReadAnswer {s : State} {n : Nat} {r : List Byte} (h : s.nextReadAnswer n = .bytes r) :
    r.length = n := by
  obtain ⟨fixed, -, rfl⟩ := nextReadAnswer_bytes h
  exact drawnBytes_length ..

/-- Settles O37: the response consists of the drawn bytes, the fixed ones first. -/
theorem successfulReadHasExactlyTheLengthAsked : Obligations.SuccessfulReadHasExactlyTheLengthAsked := by
  intro s n r h
  refine ⟨length_of_nextReadAnswer h, fun fixed rest i hqueue hi hfixed => ?_⟩
  obtain ⟨drawn, hdrawn, rfl⟩ := nextReadAnswer_bytes h
  obtain rfl : fixed = drawn := by simpa [hqueue] using hdrawn
  rw [drawnBytes_getElem? _ _ hi, List.getElem?_eq_getElem hfixed, Option.getD_some]

/-- Settles O34: what is kept is that of every transaction; the outcome follows the answers to the write and the drain
read. -/
theorem frameWriteCarriesTheFrameAndDrainsNineBytes : Obligations.FrameWriteCarriesTheFrameAndDrainsNineBytes := by
  intro dev addr us s hfew
  obtain ⟨hblock, hposition, hpending, hreadOut, -⟩ := sendWriteFrame_transacts (writeFrame dev addr us) s
  refine ⟨_, _, exec_frameWrite_of_le dev addr s hfew, isWriteFrame_writeFrame dev addr us, hblock, hposition, hpending,
    hreadOut, ?_⟩
  obtain ⟨hw, ht⟩ | ⟨hw, ht⟩ := sendWriteFrame_cases (writeFrame dev addr us) s
  · rw [ht, hw]
    simp [hw]
  · rw [ht, hw]
    obtain ⟨r, hr, hd⟩ | ⟨hr, hd⟩ | ⟨hr, hd⟩ := drainAck_cases (s.transportWrite (writeFrame dev addr us))
    all_goals
      rw [nextReadAnswer_transportWrite] at hr
      rw [hd, hr]
    · simp [hw, hr, length_of_nextReadAnswer hr]
    · simp [hw, hr]
    · simp [hw, hr]

/-- Settles O35: what is kept is that of every transaction; the outcome, or the response held, follows the answers to the
write and the response read. -/
theorem frameReadCarriesTheFrameAndReadsTheResponse : Obligations.FrameReadCarriesTheFrameAndReadsTheResponse := by
  intro dev addr n s
  obtain ⟨hblock, hposition, hpending, hreadOut, -⟩ := sendReadFrame_transacts (readFrame dev addr) n s
  refine ⟨_, _, exec_frameRead_eq dev addr n s, isReadFrame_readFrame dev addr, hblock, hposition, hpending,
    hreadOut, ?_⟩
  obtain ⟨hw, ht⟩ | ⟨hw, ht⟩ := sendReadFrame_cases (readFrame dev addr) n s
  · rw [ht, hw]
    simp [hw]
  · rw [ht, hw]
    obtain ⟨r, hr, hd⟩ | ⟨hr, hd⟩ | ⟨hr, hd⟩ := receiveResponse_cases n (s.transportWrite (readFrame dev addr))
    all_goals
      rw [nextReadAnswer_transportWrite] at hr
      rw [hd, hr]
    · simp [hw, hr, length_of_nextReadAnswer hr]
    · simp [hw, hr]
    · simp [hw, hr]

/-! ### Answers that the environment has fixed (log 4) -/

theorem nextWriteAnswer_of_queue {s : State} {a : WriteAnswer} {ws : List WriteAnswer} (h : s.writeAnswers = a :: ws) :
    s.nextWriteAnswer = a := by
  simp [State.nextWriteAnswer, h]

/-- A queued response of the length asked for is the response that the host gets (R151). -/
theorem nextReadAnswer_of_queued_bytes {s : State} {fixed : List Byte} {rs : List ReadAnswer}
    (h : s.readAnswers = .bytes fixed :: rs) : s.nextReadAnswer fixed.length = .bytes fixed := by
  simp [State.nextReadAnswer, h, drawnBytes_eq]

/-- A response that never comes is a failure where the transport has a timeout (R160, log 5). -/
theorem nextReadAnswer_of_queued_never {s : State} {rs : List ReadAnswer} (h : s.readAnswers = .never :: rs) (n : Nat) :
    s.nextReadAnswer n = if Config.transportTimeout.isSome then .transportError else .never := by
  simp [State.nextReadAnswer, h]

/-- Settles O47, as the case of O35 in which the write succeeds and the response never comes. -/
theorem readThatNeverCompletesTimesOutOrBlocks : Obligations.ReadThatNeverCompletesTimesOutOrBlocks := by
  intro s dev addr n ws rs hwrites hreads
  obtain ⟨t, f, hexec, -, hblock, -, -, -, hanswers⟩ := frameReadCarriesTheFrameAndReadsTheResponse dev addr n s
  have hread : State.nextReadAnswer { s with draws := s.draws + 1 } n =
      if Config.transportTimeout.isSome then .transportError else .never :=
    nextReadAnswer_of_queued_never (s := { s with draws := s.draws + 1 }) hreads n
  rw [nextWriteAnswer_of_queue hwrites, hread] at hanswers
  refine ⟨t, hexec, hblock, ?_⟩
  cases htimeout : Config.transportTimeout
  all_goals
    rw [htimeout] at hanswers
    obtain ⟨houtcome, htask, -⟩ := hanswers
    exact ⟨houtcome, htask⟩

end Sys2Proof.Machine
end

section
/-! PROOFS. The statements about a step: the request it runs (R24), the host's read (R46), a host that issues nothing, a
reserved ERR code (U4), and an operation on the port (R61). -/

namespace Sys2Proof.Machine

/-! ### The step of a host that is free to issue its next event -/

theorem runEvent_request {r : Request} {i : Instr} (h : decode r = .ok i) (s : State) :
    runEvent (.request r) s = exec i s := by
  simp only [runEvent, h]

/-- Settles O9: the step of a ready host is its next event, and a request's event is exec of what it decodes to. -/
theorem stepRunsTheDecodedInstruction : Obligations.StepRunsTheDecodedInstruction := by
  intro s r rest i hready hpending hdecode
  rw [hready.step_eq hpending, runEvent_request hdecode]

/-- A table word that decodes is a request that decodes. -/
theorem decode_ofTableWord {nbits w : Nat} {i : Instr} (h : decodeTableWord nbits w = some i) :
    decode (Request.ofTableWord nbits w) = .ok i := by
  unfold decodeTableWord at h
  split at h
  · next j hj => rw [hj, Option.some.inj h]
  · simp at h

/-- Settles O10: the step takes the request that withFetchWord has put at the head, and the reset line is the one before
it. -/
theorem fetchWordIsTheNextInstruction : Obligations.FetchWordIsTheNextInstruction := by
  intro s nbits w i hlegal hword
  have hstep : step (s.withFetchWord nbits w) = runEvent (.request (.ofTableWord nbits w)) { s with task := .idle } :=
    step_of_pending hlegal (by simp [State.withFetchWord, State.issue]) rfl rfl
  rw [hstep, runEvent_request (decode_ofTableWord hword)]

/-- A latch read depends on the block alone. -/
theorem readLatch_host (f : LatchField) (s : State) (pending : List HostEvent) (line : List Bool) :
    readLatch f { s with pending := pending, resetLine := line } = readLatch f s := by
  cases f
  all_goals rfl

/-- Settles O32: the step is the read, whose value or fault is the one of the state before it. -/
theorem hostReadStepHasNoSideEffect : Obligations.HostReadStepHasNoSideEffect := by
  intro s f rest hready hpending
  have hstep := hready.step_eq hpending
  have hread : readLatch f (s.withRest rest) = readLatch f s := readLatch_host ..
  refine ⟨fun v hv => ?_, fun e he => ⟨readLatch_error he, ?_⟩⟩
  · rw [hstep, runEvent, hread, hv]
  · rw [hstep, runEvent, hread, he]

/-! ### Steps in which nothing is issued -/

/-- Settles O46: the action of a blocked host is to stay. -/
theorem blockedHostIssuesNothing : Obligations.BlockedHostIssuesNothing := by
  intro s hlegal hblocked hnoReset
  rw [step_eq_hostAction hlegal hnoReset.head]
  simp only [hostAction, hblocked]

/-- Settles O48: a host with no event left stays as it is. -/
theorem idleStepKeepsTheState : Obligations.IdleStepKeepsTheState := by
  rintro s ⟨hlegal, hidle, hnoReset⟩ hpending
  rw [step_eq_hostAction hlegal hnoReset.head]
  simp only [hostAction, hidle, hpending]

/-- Settles O49: the codes 2 and 3 are neither of the two legal ones. -/
theorem reservedErrCodeIsRefused : Obligations.ReservedErrCodeIsRefused := by
  intro s hreserved
  have hillegal : ¬ s.errLegal = true := by
    rw [errLegal_iff]
    obtain h | h := hreserved
    all_goals
      rw [h]
      decide
  rw [step, if_neg hillegal]

/-! ### An operation on the port -/

/-- ERR after BUILD_WRITE tells a refused one (R101, R102). -/
theorem buildWrite_err (dev : Byte) (addr : U16) (vals : List Int) (s : State) :
    (buildWrite dev addr vals s).err = if 6 < vals.length then 1 else 0 := by
  obtain ⟨hfew, h⟩ | ⟨hmany, h⟩ := buildWrite_cases dev addr vals s
  · rw [h, if_neg (by omega)]
    rfl
  · rw [h, if_pos hmany]
    rfl

/-- An accepted BUILD_WRITE and a refused one both count (R24, log 12). -/
@[simp] theorem buildWrite_position (dev : Byte) (addr : U16) (vals : List Int) (s : State) :
    (buildWrite dev addr vals s).position = s.position + 1 := by
  obtain ⟨-, h⟩ | ⟨-, h⟩ := buildWrite_cases dev addr vals s
  all_goals simp [h]

/-- BUILD_WRITE writes nothing outside the block, whether it loads a frame or refuses (R29). -/
theorem State.sameOutside_buildWrite (s : State) (dev : Byte) (addr : U16) (vals : List Int) :
    s.SameOutside (buildWrite dev addr vals s) := by
  obtain ⟨-, h⟩ | ⟨-, h⟩ := buildWrite_cases dev addr vals s
  all_goals simp [h, State.SameOutside]

/-- What each operation on the port does to ERR, the position and the host's side. -/
theorem exec_decodePorts (p : Ports) (s : State) :
    ∃ t, exec (decodePorts p) s = .next t ∧ s.SameOutside t ∧ t.position = s.position + 1 ∧
      t.err = if p.op = 0b00 ∧ 6 < p.vals.length then 1 else 0 := by
  obtain ⟨hop, hp⟩ | ⟨hop, hp⟩ | ⟨hop, hp⟩ | ⟨hop, hp⟩ := decodePorts_cases p
  all_goals rw [hp]
  · refine ⟨_, exec_buildWrite_eq .., s.sameOutside_buildWrite .., buildWrite_position .., ?_⟩
    simp [buildWrite_err, hop]
  · exact ⟨_, exec_buildRead_eq .., s.sameOutside_build .., rfl, by simp [hop]⟩
  · exact ⟨_, exec_parse_eq .., s.sameOutside_parse _, rfl, by simp [hop]⟩
  · exact ⟨_, exec_checksum_eq .., s.sameOutside_checksum _, rfl, by simp [hop, errNone]⟩

/-- Settles O54: the step is the operation, which goes on and writes one of the two codes. -/
theorem everyOperationOnThePortCompletes : Obligations.EveryOperationOnThePortCompletes := by
  intro s p rest hready hpending
  obtain ⟨t, hexec, ⟨hrest, -⟩, -, herr⟩ := exec_decodePorts p (s.withRest rest)
  refine ⟨t, (stepRunsTheDecodedInstruction s _ rest _ hready hpending rfl).trans hexec, hrest, ?_⟩
  rw [herr]
  split
  · next hrefused => simpa using hrefused
  · next haccepted => simpa using haccepted

/-! ### The steps of a running host operation -/

section
variable {s : State} (hlegal : s.errLegal = true) (hline : s.resetLine.head? ≠ some true)
include hlegal hline

theorem step_of_writeBuilt (h : s.task = .writeBuilt) :
    step s = finishWrite { s with resetLine := s.resetLine.tail } := by
  rw [step_eq_hostAction hlegal hline]
  simp only [hostAction, h]

theorem step_of_readBuilt {n : Nat} (h : s.task = .readBuilt n) :
    step s = finishRead n { s with resetLine := s.resetLine.tail } := by
  rw [step_eq_hostAction hlegal hline]
  simp only [hostAction, h]

theorem step_of_received {r : List Byte} (h : s.task = .received r) :
    step s = .next ((parse r { s with resetLine := s.resetLine.tail }).goTo .parsed) := by
  rw [step_eq_hostAction hlegal hline]
  simp only [hostAction, h]

theorem step_of_parsed (h : s.task = .parsed) :
    step s = returnValues { s with resetLine := s.resetLine.tail } := by
  rw [step_eq_hostAction hlegal hline]
  simp only [hostAction, h]

end

/-- Settles O33: an operation on the port counts once, and so does the PARSE of a response; a transaction keeps the
position. -/
theorem positionCountsAcceptedOperations : Obligations.PositionCountsAcceptedOperations := by
  refine ⟨fun s p => ?_, fun s r hlegal hreceived hnoReset => ?_, fun s dev addr us => ?_, fun s dev addr n => ?_⟩
  · obtain ⟨t, hexec, -, hposition, -⟩ := exec_decodePorts p s
    exact ⟨t, hexec, hposition⟩
  · exact ⟨_, step_of_received hlegal hnoReset.head hreceived, rfl⟩
  · by_cases hfew : us.length ≤ 6
    · obtain ⟨-, hposition, -⟩ := sendWriteFrame_transacts (writeFrame dev addr us) s
      exact ⟨_, exec_frameWrite_of_le dev addr s hfew, hposition⟩
    · exact ⟨_, exec_frameWrite_of_lt dev addr s (by omega), rfl⟩
  · obtain ⟨-, hposition, -⟩ := sendReadFrame_transacts (readFrame dev addr) n s
    exact ⟨_, exec_frameRead_eq dev addr n s, hposition⟩

end Sys2Proof.Machine
end

section
/-! PROOFS. The statements about the two host operations (R153, R155): a name that has no address, WRITE_REGISTER and
READ_REGISTER step by step, and a reset between two of their steps (R190). -/

namespace Sys2Proof.Machine

/-! ### Names without an address -/

theorem addressOf_empty : addressOf "" = .error .emptyRegisterName := if_pos rfl

section
variable {dev : Byte} {name : String} {vals : List Int} {n : Nat} {s : State}

theorem writeRegister_of_error {refusal : Refusal} (h : addressOf name = .error refusal) :
    writeRegister dev name vals s = .refused refusal := by
  simp only [writeRegister, h]

theorem readRegister_of_error {refusal : Refusal} (h : addressOf name = .error refusal) :
    readRegister dev name n s = .refused refusal := by
  simp only [readRegister, h]

theorem writeRegister_of_notFound (h : addressOf name = .ok .notFound) :
    writeRegister dev name vals s = .next (s.returnOutcome .configurationError) := by
  simp only [writeRegister, h]

theorem readRegister_of_notFound (h : addressOf name = .ok .notFound) :
    readRegister dev name n s = .next (s.returnOutcome .configurationError) := by
  simp only [readRegister, h]

theorem writeRegister_of_address {addr : U16} (h : addressOf name = .ok (.address addr)) :
    writeRegister dev name vals s = .next ((buildWrite dev addr vals s).goTo .writeBuilt) := by
  simp only [writeRegister, h]

theorem readRegister_of_address {addr : U16} (h : addressOf name = .ok (.address addr)) :
    readRegister dev name n s = .next ((buildRead dev addr s).goTo (.readBuilt n)) := by
  simp only [readRegister, h]

end

theorem step_of_writeRegister {s : State} {dev : Byte} {name : String} {vals : List Int} {rest : List HostEvent}
    (hready : s.Ready) (hpending : s.pending = .writeRegister dev name vals :: rest) :
    step s = writeRegister dev name vals (s.withRest rest) :=
  hready.step_eq hpending

theorem step_of_readRegister {s : State} {dev : Byte} {name : String} {n : Nat} {rest : List HostEvent}
    (hready : s.Ready) (hpending : s.pending = .readRegister dev name n :: rest) :
    step s = readRegister dev name n (s.withRest rest) :=
  hready.step_eq hpending

/-- Settles O45: the lookup's refusal is the step's. -/
theorem emptyRegisterNameIsRefused : Obligations.EmptyRegisterNameIsRefused := by
  refine ⟨addressOf_empty, fun s dev vals n rest hready => ⟨fun hpending => ?_, fun hpending => ?_⟩⟩
  · rw [step_of_writeRegister hready hpending, writeRegister_of_error addressOf_empty]
  · rw [step_of_readRegister hready hpending, readRegister_of_error addressOf_empty]

/-- Settles O39: the lookup's NotFound is returned before any operation of the block. -/
theorem unknownNameIsConfigurationErrorWithoutIO : Obligations.UnknownNameIsConfigurationErrorWithoutIO := by
  intro s dev name vals n rest hready hne hunknown
  have hlookup : addressOf name = .ok .notFound := addressOf_of_not_mem_catalog hne hunknown
  refine ⟨fun hpending => ?_, fun hpending => ?_⟩
  · rw [step_of_writeRegister hready hpending, writeRegister_of_notFound hlookup]
    rfl
  · rw [step_of_readRegister hready hpending, readRegister_of_notFound hlookup]
    rfl

/-- Every name of the catalog has an address (R158). -/
theorem exists_address_of_mem_catalog {name : String} (h : name ∈ catalog.map Prod.fst) :
    ∃ addr, addressOf name = .ok (.address addr) := by
  obtain ⟨entry, hentry, rfl⟩ := List.mem_map.mp h
  exact ⟨_, addressOf_of_mem_catalog hentry⟩

/-! ### The test of ERR and the read-outs -/

/-- The host finds ERR = TOO_MANY_VALUES and returns ValidationError with no I/O (R153, R196). -/
theorem finishWrite_of_tooManyValues {s : State} (h : s.err = 1) :
    finishWrite s = .next ((s.goTo .idle).returnOutcome .validationError) :=
  if_pos h

/-- The host reads a frame out of the latch and hands it to the transport (R153). -/
theorem finishWrite_of_frame {s : State} {f : List Byte} (herr : s.err = 0) (h : readFrameBytes s = .ok f) :
    finishWrite s = .next (sendWriteFrame f (s.goTo .idle)) := by
  have hne : s.err ≠ errTooManyValues := by rw [herr]; decide
  simp only [finishWrite, if_neg hne, h]

theorem finishWrite_of_invalid {s : State} (herr : s.err = 0) (h : s.frame.valid = false) :
    finishWrite s = .fault (.readInvalidLatch .frameLen) := by
  have hne : s.err ≠ errTooManyValues := by rw [herr]; decide
  simp only [finishWrite, if_neg hne, readFrameBytes_of_invalid h]

/-- The host reads a frame out of the latch and hands it to the transport (R155). -/
theorem finishRead_of_frame {s : State} {f : List Byte} (n : Nat) (h : readFrameBytes s = .ok f) :
    finishRead n s = .next (sendReadFrame f n (s.goTo .idle)) := by
  simp only [finishRead, h]

theorem finishRead_of_invalid {s : State} (n : Nat) (h : s.frame.valid = false) :
    finishRead n s = .fault (.readInvalidLatch .frameLen) := by
  simp only [finishRead, readFrameBytes_of_invalid h]

theorem returnValues_of_valid {s : State} (h : s.values.valid = true) :
    returnValues s = .next ((s.goTo .idle).returnOutcome (.ok (some s.values.contents))) := by
  simp only [returnValues, readValues, h, if_true]

theorem returnValues_of_invalid {s : State} (h : s.values.valid = false) :
    returnValues s = .fault (.readInvalidLatch .valueCount) := by
  simp [returnValues, readValues, h]

/-- Steps later, as many steps fewer without a reset. -/
theorem State.NoReset.drop {s t : State} {j k : Nat} (h : s.NoReset (j + k)) (ht : t.resetLine = s.resetLine.drop j) :
    t.NoReset k := by
  intro b hb
  have htake : t.resetLine.take k = (s.resetLine.take (j + k)).drop j := by
    rw [ht, List.drop_take, Nat.add_sub_cancel_left]
  exact h b (List.mem_of_mem_drop (htake ▸ hb))

/-! ### From a build to the transaction of its frame -/

/-- The host operation over, and the reset line moved on past its second step. -/
theorem goTo_idle_eq {s b : State} (k : HostTask) (hline : b.resetLine = s.resetLine.tail) (hidle : b.task = .idle) :
    State.goTo { b with task := k, resetLine := b.resetLine.tail } .idle =
      { b with resetLine := s.resetLine.drop 2 } := by
  have htail : b.resetLine.tail = s.resetLine.drop 2 := by rw [hline, ← List.drop_one, List.drop_tail]
  rw [htail, ← hidle]
  rfl

section
variable {s b : State} {f : List Byte} (hnoReset : s.NoReset 2) (hline : b.resetLine = s.resetLine.tail)
  (hidle : b.task = .idle) (herr : b.err = 0) (hread : readFrameBytes b = .ok f)
include hnoReset hline hidle herr hread

/-- From a state that BUILD_WRITE has left, the next step of WRITE_REGISTER is the transaction of the frame held. -/
theorem step_writeBuilt_of_frame :
    step { b with task := .writeBuilt } = .next (sendWriteFrame f { b with resetLine := s.resetLine.drop 2 }) := by
  have hlegal : State.errLegal { b with task := .writeBuilt } = true := (errLegal_iff _).mpr (.inl herr)
  rw [step_of_writeBuilt hlegal (hnoReset.tail hline).head rfl, ← goTo_idle_eq .writeBuilt hline hidle]
  exact finishWrite_of_frame herr hread

/-- From a state that BUILD_READ has left, the next step of READ_REGISTER is the transaction of the frame held. -/
theorem step_readBuilt_of_frame (n : Nat) :
    step { b with task := .readBuilt n } = .next (sendReadFrame f n { b with resetLine := s.resetLine.drop 2 }) := by
  have hlegal : State.errLegal { b with task := .readBuilt n } = true := (errLegal_iff _).mpr (.inl herr)
  rw [step_of_readBuilt hlegal (hnoReset.tail hline).head rfl, ← goTo_idle_eq (.readBuilt n) hline hidle]
  exact finishRead_of_frame n hread

end

/-! ### WRITE_REGISTER -/

/-- Settles O40: the first step is the refused BUILD_WRITE, the second finds its ERR code. -/
theorem writeRegisterOfTooManyValuesIsValidationErrorWithoutIO :
    Obligations.WriteRegisterOfTooManyValuesIsValidationErrorWithoutIO := by
  intro s dev name vals rest hready hnoReset hname hmany hpending
  obtain ⟨-, hidle, -⟩ := id hready
  obtain ⟨addr, haddress⟩ := exists_address_of_mem_catalog hname
  have hfirst := step_of_writeRegister hready hpending
  rw [writeRegister_of_address haddress, buildWrite_of_lt _ _ _ hmany] at hfirst
  refine ⟨_, s.position + 1, hfirst, rfl, rfl, ?_⟩
  rw [step_of_writeBuilt rfl (hnoReset.tail rfl).head rfl, finishWrite_of_tooManyValues rfl]
  simp [State.goTo, State.returnOutcome, State.withRest, hidle, ← List.drop_one]

/-- Settles O41: the first step is BUILD_WRITE, after which the frame read out of the latch is the one that FRAME_WRITE
carries. -/
theorem writeRegisterIsBuildWriteThenFrameWrite : Obligations.WriteRegisterIsBuildWriteThenFrameWrite := by
  intro s dev name vals addr rest hready hnoReset haddress hfew hpending
  obtain ⟨-, hidle, -⟩ := id hready
  have hfirst := (step_of_writeRegister hready hpending).trans (writeRegister_of_address haddress)
  obtain ⟨-, -, -, htask, hline, -⟩ := (s.withRest rest).sameOutside_buildWrite dev addr vals
  have herr : (buildWrite dev addr vals (s.withRest rest)).err = 0 := by rw [buildWrite_err, if_neg (by omega)]
  refine ⟨_, exec_buildWrite_eq .., hfirst, ?_⟩
  rw [step_writeBuilt_of_frame hnoReset hline (htask.trans hidle) herr (readFrameBytes_buildWrite dev addr _ hfew),
    map_truncate16_eq, exec_frameWrite_of_le dev addr _ (by simpa using hfew)]

/-! ### READ_REGISTER -/

/-- The first step of READ_REGISTER is BUILD_READ, and the second the transaction of the read frame. -/
theorem readRegister_first_two_steps {s : State} {dev : Byte} {name : String} {n : Nat} {addr : U16}
    {rest : List HostEvent} (hready : s.Ready) (hnoReset : s.NoReset 2) (haddress : addressOf name = .ok (.address addr))
    (hpending : s.pending = .readRegister dev name n :: rest) :
    step s = .next { buildRead dev addr (s.withRest rest) with task := .readBuilt n } ∧
    step { buildRead dev addr (s.withRest rest) with task := .readBuilt n } =
      .next (sendReadFrame (readFrame dev addr) n
        { buildRead dev addr (s.withRest rest) with resetLine := s.resetLine.drop 2 }) := by
  obtain ⟨-, hidle, -⟩ := id hready
  exact ⟨(step_of_readRegister hready hpending).trans (readRegister_of_address haddress),
    step_readBuilt_of_frame (b := buildRead dev addr (s.withRest rest)) hnoReset rfl hidle rfl
      (readFrameBytes_buildRead dev addr _) n⟩

/-- Settles O42: the frame read out of the latch is the one that FRAME_READ carries. -/
theorem readRegisterIsBuildReadThenFrameRead : Obligations.ReadRegisterIsBuildReadThenFrameRead := by
  intro s dev name n addr rest hready hnoReset haddress hpending
  obtain ⟨hfirst, hsecond⟩ := readRegister_first_two_steps hready hnoReset haddress hpending
  exact ⟨_, exec_buildRead_eq .., hfirst, hsecond⟩

/-- Settles O56: PARSE leaves valid values, which the next step reads out and returns. -/
theorem responseIsParsedAndItsValuesReturned : Obligations.ResponseIsParsedAndItsValuesReturned := by
  intro s r hlegal hreceived hnoReset
  refine ⟨_, _, _, exec_parse_eq r s, step_of_received hlegal hnoReset.head hreceived,
    (step_of_parsed rfl (hnoReset.tail rfl).head rfl).trans (returnValues_of_valid rfl),
    ⟨rfl, rfl, rfl, rfl⟩, rfl, rfl, rfl, ⟨rfl, rfl, rfl, rfl⟩, rfl, rfl, rfl, rfl, rfl, rfl⟩

section
variable {s : State} {fixed : List Byte} {ws : List WriteAnswer} {rs : List ReadAnswer}
  (hwrites : s.writeAnswers = .success :: ws) (hreads : s.readAnswers = .bytes fixed :: rs) (f : List Byte)
include hwrites hreads

/-- The transaction of a read frame whose calls both succeed leaves the host with the response (R155). -/
theorem sendReadFrame_of_success :
    sendReadFrame f fixed.length s =
      ((s.transportWrite f).transportRead fixed.length).goTo (.received fixed) := by
  have hread : (s.transportWrite f).nextReadAnswer fixed.length = .bytes fixed := nextReadAnswer_of_queued_bytes hreads
  simp only [sendReadFrame, nextWriteAnswer_of_queue hwrites, receiveResponse, hread]

/-- The two calls of that transaction are recorded with their answers. -/
theorem traffic_of_success :
    ((s.transportWrite f).transportRead fixed.length).traffic =
      s.traffic ++ [.write f .success, .read fixed.length (.bytes fixed)] := by
  have hread : (s.transportWrite f).nextReadAnswer fixed.length = .bytes fixed := nextReadAnswer_of_queued_bytes hreads
  rw [State.transportRead_traffic, State.transportWrite_traffic, nextWriteAnswer_of_queue hwrites,
    hread, List.append_assoc, List.singleton_append]

end

/-- A READ_REGISTER whose transport calls succeed holds the response after its first two steps, with the read frame in
the FRAME latch and the other latches as they were (R155). -/
theorem readRegister_receives {s : State} {dev : Byte} {name : String} {addr : U16} {rest : List HostEvent}
    {fixed : List Byte} {ws : List WriteAnswer} {rs : List ReadAnswer} (hready : s.Ready) (hnoReset : s.NoReset 2)
    (haddress : addressOf name = .ok (.address addr))
    (hpending : s.pending = .readRegister dev name fixed.length :: rest) (hwrites : s.writeAnswers = .success :: ws)
    (hreads : s.readAnswers = .bytes fixed :: rs) :
    ∃ s₁ s₂, step s = .next s₁ ∧ step s₁ = .next s₂ ∧ s₂.errLegal = true ∧ s₂.task = .received fixed ∧
      s₂.resetLine = s.resetLine.drop 2 ∧ s₂.frame.contents = readFrame dev addr ∧ s₂.values = s.values ∧
      s₂.csum = s.csum ∧ s₂.position = s.position + 1 ∧ s₂.pending = rest ∧
      s₂.traffic = s.traffic ++ [.write (readFrame dev addr) .success, .read fixed.length (.bytes fixed)] := by
  obtain ⟨hfirst, hsecond⟩ := readRegister_first_two_steps hready hnoReset haddress hpending
  -- `by exact`, so that the state is the one of `hsecond`, whose queues are those of `s`.
  exact ⟨_, _, hfirst,
    hsecond.trans (congrArg _ (sendReadFrame_of_success (by exact hwrites) (by exact hreads) _)), rfl, rfl, rfl,
    buildRead_frame_contents dev addr (s.withRest rest), rfl, rfl, rfl, rfl, traffic_of_success hwrites hreads _⟩

/-- Settles O43: the host holds the response after two steps (`readRegister_receives`), and two more parse it and return
its values (O56). -/
theorem readRegisterReturnsTheParsedValues : Obligations.ReadRegisterReturnsTheParsedValues := by
  rintro s dev name n addr rest fixed ws rs hready hnoReset haddress hpending hwrites hreads rfl
  obtain ⟨s₁, s₂, hfirst, hsecond, hlegal, hreceived, hline, hframe, hvalues, hcsum, hposition, hrest, hsent⟩ :=
    readRegister_receives hready (hnoReset.mono (by decide)) haddress hpending hwrites hreads
  obtain ⟨p, s₃, t, hparse, hthird, hfourth, ⟨hframe₃, hvalues₃, hcsum₃, herr₃⟩, -, hposition₃, -,
      ⟨hframe₄, hvalues₄, hcsum₄, herr₄⟩, houtcome, htask, hposition₄, hpending₄, htraffic₄, -⟩ :=
    responseIsParsedAndItsValuesReturned s₂ fixed hlegal hreceived (hnoReset.drop (j := 2) hline)
  obtain rfl : parse fixed s₂ = p := Host.Outcome.next.inj hparse
  have hcontents : t.frame.contents = readFrame dev addr := by rw [hframe₄, hframe₃, parse_frame, hframe]
  refine ⟨s₁, s₂, s₃, t, _, exec_parse_eq fixed s, hfirst, hsecond, hthird, hfourth, ?_, htask, ?_, ?_, ?_, ?_, ?_,
    hpending₄.trans hrest, ?_⟩
  · rw [houtcome, parse_values_contents, parse_values_contents]
  · rw [hvalues₄, hvalues₃, parse_values, hvalues, parse_values]
  · rw [herr₄, herr₃, parse_err]
  · rw [hcsum₄, hcsum₃, parse_csum, hcsum]
  · exact hcontents ▸ isReadFrame_readFrame dev addr
  · rw [hposition₄, hposition₃, parse_position, hposition]
  · rw [htraffic₄, hsent, hcontents]

/-! ### A reset inside a host operation -/

/-- A reset clears ERR and the valid bits, and leaves the host where it stands (R191). -/
theorem step_of_reset {s : State} {later : List Bool} (hlegal : s.errLegal = true)
    (hline : s.resetLine = true :: later) :
    ∃ t, step s = .next t ∧ t.errLegal = true ∧ t.resetLine = later ∧ t.task = s.task ∧ t.traffic = s.traffic ∧
      t.err = 0 ∧ t.frame.valid = false ∧ t.values.valid = false :=
  ⟨_, step_eq_reset hlegal hline, rfl, rfl, rfl, rfl, rfl, rfl, rfl⟩

/-- Settles O55: the reset keeps the host where it stands, so the next step is the read-out of an invalid latch, or the
PARSE of the response held. -/
theorem resetInsideAHostOperation : Obligations.ResetInsideAHostOperation := by
  intro s later hlegal hline hlater
  obtain ⟨t, hreset, hlegal', hline', htask, htraffic, herr, hframe, hvalues⟩ := step_of_reset hlegal hline
  rw [← hline'] at hlater
  rw [← htask]
  refine ⟨?_, fun r hreceived => ?_, fun hparsed => ?_⟩
  · rintro (hbuilt | ⟨n, hbuilt⟩)
    · exact ⟨t, hreset, htraffic,
        (step_of_writeBuilt hlegal' hlater hbuilt).trans (finishWrite_of_invalid herr hframe)⟩
    · exact ⟨t, hreset, htraffic, (step_of_readBuilt hlegal' hlater hbuilt).trans (finishRead_of_invalid n hframe)⟩
  · refine ⟨t, _, _, hreset, step_of_received hlegal' hlater hreceived, rfl, exec_parse_eq r s, rfl, ?_⟩
    rw [State.goTo_values, parse_values_contents, parse_values_contents]
  · exact ⟨t, hreset, (step_of_parsed hlegal' hlater hparsed).trans (returnValues_of_invalid hvalues)⟩

end Sys2Proof.Machine
end

section
/-! PROOFS. The statements about every step: what a step can do to the block and to the traffic, said once
(`stepEffect_of_step`), and the rules that follow from it: R35, the frames sent, R36, R156, and the faults (R30). -/

namespace Sys2Proof.Machine

/-! ### What a step can do -/

/-- The block and the traffic are as before. -/
def State.SameBlockAndTraffic (s t : State) : Prop := s.SameBlock t ∧ t.traffic = s.traffic

/-- The operation of the block that the host issues in this step: on the port (R60), as the build of a host operation, or
as the PARSE of a response (R153, R155). -/
inductive State.Issues (s : State) : Instr → Prop
  | port {p : Ports} {rest : List HostEvent} (hidle : s.task = .idle)
      (hpending : s.pending = .request (.port p) :: rest) : s.Issues (decodePorts p)
  | writeRegister {dev : Byte} {name : String} {vals : List Int} {addr : U16} {rest : List HostEvent}
      (hidle : s.task = .idle) (hpending : s.pending = .writeRegister dev name vals :: rest) :
      s.Issues (.buildWrite dev addr vals)
  | readRegister {dev : Byte} {name : String} {n : Nat} {addr : U16} {rest : List HostEvent}
      (hidle : s.task = .idle) (hpending : s.pending = .readRegister dev name n :: rest) :
      s.Issues (.buildRead dev addr)
  | response {raw : List Byte} (hreceived : s.task = .received raw) : s.Issues (.parse raw)

/-- Everything that a step that goes on can do to the block and to the traffic. -/
inductive StepEffect (s t : State) : Prop
  /-- The platform resets the block (R191). -/
  | reset {later : List Bool} (hline : s.resetLine = true :: later) (hblock : s.resetBlock.SameBlockAndTraffic t)
  /-- The host does nothing, reads a latch, or returns an outcome without a transport call. -/
  | keeps (hsame : s.SameBlockAndTraffic t)
  /-- The host hands one frame to the transport: the one in the FRAME latch, or one issued as a request (log 6). -/
  | carries {f : List Byte} (hframe : s.frame.valid = true ∧ f = s.frame.contents ∨ IsRequestFrame f)
      (hblock : s.SameBlock t) (htraffic : s.Carries f t)
  /-- The block runs one operation. -/
  | operates {i : Instr} {u v : State} (hissues : s.Issues i) (hbefore : s.SameBlockAndTraffic u)
      (hexec : exec i u = .next v) (hafter : v.SameBlockAndTraffic t)

theorem State.sameBlockAndTraffic_goTo (s : State) (k : HostTask) : s.SameBlockAndTraffic (s.goTo k) :=
  ⟨⟨rfl, rfl, rfl, rfl⟩, rfl⟩

/-- Nothing that the host's own fields hold is part of the block or the traffic. -/
theorem State.sameBlockAndTraffic_host (s : State) (pending : List HostEvent) (line : List Bool) (task : HostTask)
    (readOut : Option ReadOut) (outcome : Option HostOutcome) :
    s.SameBlockAndTraffic
      { s with pending := pending, resetLine := line, task := task, readOut := readOut, outcome := outcome } :=
  ⟨⟨rfl, rfl, rfl, rfl⟩, rfl⟩

/-- The bytes of a request are refused, or they are a request frame that goes to the transport. -/
theorem runEvent_frame_effect {u t : State} {bytes : List Byte} {n : Nat}
    (h : runEvent (.request (.frame bytes n)) u = .next t) :
    IsRequestFrame bytes ∧ u.Transacts bytes t := by
  cases hdecode : decode (.frame bytes n) with
  | error reason => simp [runEvent, hdecode] at h
  | ok i =>
    rw [runEvent_request hdecode] at h
    obtain ⟨dev, addr, us, hle, rfl, rfl⟩ | ⟨dev, addr, rfl, rfl⟩ := decodeFrame_eq_ok_iff.mp hdecode
    · rw [exec_frameWrite_of_le dev addr u hle] at h
      exact ⟨isRequestFrame_writeFrame dev addr hle, Host.Outcome.next.inj h ▸ sendWriteFrame_transacts ..⟩
    · exact ⟨isRequestFrame_readFrame dev addr, Host.Outcome.next.inj h ▸ sendReadFrame_transacts ..⟩

/-- Everything that the host's next event can do. -/
theorem runEvent_effect {s t : State} {e : HostEvent} {rest : List HostEvent} {line : List Bool}
    (hidle : s.task = .idle) (hpending : s.pending = e :: rest)
    (h : runEvent e { s with pending := rest, resetLine := line } = .next t) : StepEffect s t := by
  have hbefore := s.sameBlockAndTraffic_host rest line s.task s.readOut s.outcome
  cases e with
  | request r =>
    cases r with
    | port p => exact .operates (.port hidle hpending) hbefore h ⟨⟨rfl, rfl, rfl, rfl⟩, rfl⟩
    | frame bytes n =>
      obtain ⟨hframe, hblock, -, -, -, htraffic⟩ := runEvent_frame_effect h
      exact .carries (.inr hframe) hblock htraffic
  | writeRegister dev name vals =>
    obtain ⟨-, hw⟩ | ⟨-, hw⟩ | ⟨addr, -, hw⟩ :=
      writeRegister_cases dev name vals { s with pending := rest, resetLine := line }
    · cases hw.symm.trans h
    · cases hw.symm.trans h
      exact .keeps hbefore
    · cases hw.symm.trans h
      exact .operates (.writeRegister hidle hpending) hbefore (exec_buildWrite_eq ..) (State.sameBlockAndTraffic_goTo ..)
  | readRegister dev name n =>
    obtain ⟨-, hr⟩ | ⟨-, hr⟩ | ⟨addr, -, hr⟩ :=
      readRegister_cases dev name n { s with pending := rest, resetLine := line }
    · cases hr.symm.trans h
    · cases hr.symm.trans h
      exact .keeps hbefore
    · cases hr.symm.trans h
      exact .operates (.readRegister hidle hpending) hbefore (exec_buildRead_eq ..) (State.sameBlockAndTraffic_goTo ..)
  | readLatch f =>
    simp only [runEvent] at h
    split at h
    · cases h
      exact .keeps hbefore
    · cases h

/-- Everything that the host's action can do, the reset line moved on. -/
theorem hostAction_effect {s t : State} {line : List Bool} (h : hostAction { s with resetLine := line } = .next t) :
    StepEffect s t := by
  have hbefore := s.sameBlockAndTraffic_host s.pending line s.task s.readOut s.outcome
  obtain ⟨-, ha⟩ | ⟨n, -, ha⟩ | ⟨r, hreceived, ha⟩ | ⟨-, ha⟩ | ⟨-, ha⟩ | ⟨e, rest, hidle, hpending, ha⟩ :=
    hostAction_cases { s with resetLine := line }
  all_goals rw [ha] at h
  · obtain ⟨-, hf⟩ | ⟨-, -, hf⟩ | ⟨-, hvalid, hf⟩ := finishWrite_cases { s with resetLine := line }
    · cases hf.symm.trans h
      exact .keeps hbefore
    · cases hf.symm.trans h
    · cases hf.symm.trans h
      obtain ⟨hblock, -, -, -, htraffic⟩ := sendWriteFrame_transacts s.frame.contents
        (State.goTo { s with resetLine := line } .idle)
      exact .carries (.inl ⟨hvalid, rfl⟩) hblock htraffic
  · obtain ⟨-, hf⟩ | ⟨hvalid, hf⟩ := finishRead_cases n { s with resetLine := line }
    · cases hf.symm.trans h
    · cases hf.symm.trans h
      obtain ⟨hblock, -, -, -, htraffic⟩ := sendReadFrame_transacts s.frame.contents n
        (State.goTo { s with resetLine := line } .idle)
      exact .carries (.inl ⟨hvalid, rfl⟩) hblock htraffic
  · cases h
    exact .operates (.response hreceived) hbefore (exec_parse_eq ..) (State.sameBlockAndTraffic_goTo ..)
  · obtain ⟨-, hf⟩ | ⟨-, hf⟩ := returnValues_cases { s with resetLine := line }
    · cases hf.symm.trans h
    · cases hf.symm.trans h
      exact .keeps hbefore
  · cases h
    exact .keeps hbefore
  · exact runEvent_effect hidle hpending h

/-- A step that goes on is the platform's reset or an action of the host. -/
theorem stepEffect_of_step {s t : State} (h : step s = .next t) : StepEffect s t := by
  obtain ⟨-, later, hline, hs⟩ | ⟨-, -, hs⟩ | ⟨-, hs⟩ := step_eq s
  all_goals rw [hs] at h
  · cases h
    exact .reset hline ⟨⟨rfl, rfl, rfl, rfl⟩, rfl⟩
  · exact hostAction_effect h
  · cases h

/-! ### What an operation can do -/

/-- The state after one of the four operations, whichever way the host issued it. -/
theorem State.Issues.next_cases {s u v : State} {i : Instr} (hissues : s.Issues i) (hexec : exec i u = .next v) :
    (∃ dev addr vals, v = buildWrite dev addr vals u) ∨ (∃ dev addr, v = buildRead dev addr u) ∨
    (∃ raw, v = parse raw u) ∨ ∃ cs, v = (u.loadCsum (checksum8 cs)).succeed.accept := by
  cases hissues with
  | @port p rest hidle hpending =>
    obtain ⟨-, hp⟩ | ⟨-, hp⟩ | ⟨-, hp⟩ | ⟨-, hp⟩ := decodePorts_cases p
    all_goals
      rw [hp] at hexec
      cases hexec
    · exact .inl ⟨_, _, _, rfl⟩
    · exact .inr (.inl ⟨_, _, rfl⟩)
    · exact .inr (.inr (.inl ⟨_, rfl⟩))
    · exact .inr (.inr (.inr ⟨_, rfl⟩))
  | writeRegister =>
    cases hexec
    exact .inl ⟨_, _, _, rfl⟩
  | readRegister =>
    cases hexec
    exact .inr (.inl ⟨_, _, rfl⟩)
  | response =>
    cases hexec
    exact .inr (.inr (.inl ⟨_, rfl⟩))

/-- No operation of the block calls the transport. -/
theorem State.Issues.traffic_eq {s u v : State} {i : Instr} (hissues : s.Issues i) (hexec : exec i u = .next v) :
    v.traffic = u.traffic := by
  obtain ⟨dev, addr, vals, rfl⟩ | ⟨dev, addr, rfl⟩ | ⟨raw, rfl⟩ | ⟨cs, rfl⟩ := hissues.next_cases hexec
  · obtain ⟨-, -, -, -, -, htraffic, -⟩ := u.sameOutside_buildWrite dev addr vals
    exact htraffic
  · rfl
  · rfl
  · rfl

/-- Settles O44: only a transaction calls the transport, and it makes one write call and at most one read call. -/
theorem noStepRetriesATransportCall : Obligations.NoStepRetriesATransportCall := by
  intro s t h
  cases stepEffect_of_step h with
  | reset hline hblock => exact .inl hblock.2
  | keeps hsame => exact .inl hsame.2
  | @carries f hframe hblock htraffic =>
    obtain hfailed | ⟨n, a, hread⟩ := htraffic
    · exact .inr (.inl ⟨f, hfailed⟩)
    · exact .inr (.inr ⟨f, n, a, hread⟩)
  | operates hissues hbefore hexec hafter =>
    exact .inl (hafter.2.trans ((hissues.traffic_eq hexec).trans hbefore.2))

end Sys2Proof.Machine
end

section
/-! PROOFS. What every step keeps: the latch invariant (R35, R25) and the traffic invariant (R109, R153, R155); where a
latch can change (R36), and where a step can fault (R30, R173). -/

namespace Sys2Proof.Machine

/-! ### The latch invariant -/

/-- What R35 says of a frame, for both kinds: its length and command byte, its sync bytes, and its checksum byte. -/
theorem IsRequestFrame.layout {f : List Byte} (h : IsRequestFrame f) :
    ((f.length = 9 ∧ f[4]? = some 0x11) ∨ ∃ n, n ≤ 6 ∧ f.length = 8 + 2 * n ∧ f[4]? = some 0x12) ∧
    f[0]? = some 0xEB ∧ f[1]? = some 0x90 ∧
    f[f.length - 1]? =
      some (BitVec.ofNat 8 ((((f.drop 2).take (f.length - 3)).map BitVec.toNat).sum % 256)) := by
  obtain ⟨dev, addr, us, hle, hlen, h0, h1, -, -, h4, -, -, -, hsum⟩ | ⟨dev, addr, hlen, h0, h1, -, -, h4, -, -, -, hsum⟩ := h
  · refine ⟨.inr ⟨us.length, hle, hlen, h4⟩, h0, h1, ?_⟩
    rw [show f.length - 1 = 7 + 2 * us.length by omega, show f.length - 3 = 5 + 2 * us.length by omega]
    exact hsum
  · refine ⟨.inl ⟨hlen, h4⟩, h0, h1, ?_⟩
    rw [hlen]
    exact hsum

/-- A request frame fits the FRAME latch, and is no shorter than the shortest one (R15). -/
theorem IsRequestFrame.length_bounds {f : List Byte} (h : IsRequestFrame f) : 8 ≤ f.length ∧ f.length ≤ 20 := by
  obtain ⟨⟨hlen, -⟩ | ⟨n, hn, hlen, -⟩, -⟩ := h.layout
  all_goals omega

/-- A byte of the frame loaded, read off FRAME_BYTES. -/
theorem FrameLatch.load_getElem (l : FrameLatch) {f : List Byte} {i : Nat} {b : Byte} (h20 : i < 20)
    (h : f[i]? = some b) : (l.load f).bytes[i] = b := by
  obtain ⟨hi, -⟩ := List.getElem?_eq_some_iff.mp h
  have hload := l.load_getElem? f hi h20
  rw [h, Vector.getElem?_eq_getElem h20] at hload
  exact Option.some.inj hload

/-- A latch that has taken a request frame meets R35. -/
theorem FrameLatch.inv_load (l : FrameLatch) {f : List Byte} (h : IsRequestFrame f) : (l.load f).Inv := by
  obtain ⟨hmin, hmax⟩ := h.length_bounds
  obtain ⟨hkind, h0, h1, hsum⟩ := h.layout
  have hlen := l.load_len_toNat hmax
  intro _
  refine ⟨?kind, l.load_getElem (by decide) h0, l.load_getElem (by decide) h1, ?checksum⟩
  case kind =>
    rw [hlen]
    obtain ⟨hnine, h4⟩ | ⟨n, hn, heven, h4⟩ := hkind
    · exact .inl ⟨hnine, l.load_getElem (by decide) h4⟩
    · exact .inr ⟨n, hn, heven, l.load_getElem (by decide) h4⟩
  case checksum =>
    rw [← (l.load f).contents_getElem?_last (by omega), ← (l.load f).take_drop_contents (by omega), hlen,
      l.load_contents hmax]
    exact hsum

/-- A latch that has taken a parse result meets R35. -/
theorem ValuesLatch.inv_load_parseValues (l : ValuesLatch) (raw : List Byte) : (l.load (parseValues raw)).Inv := by
  have hle := parseValues_length_le raw
  have hcount : (l.load (parseValues raw)).count.toNat = (parseValues raw).length := by
    rw [l.load_count, BitVec.toNat_ofNat]
    omega
  intro _
  rw [hcount]
  refine ⟨hle, fun k v hk hv => ?_⟩
  rw [l.load_getElem? _ hk (by omega)] at hv
  exact parseValues_le (List.mem_of_getElem? hv)

/-- R35 says nothing of a latch that is not valid. -/
theorem FrameLatch.inv_of_invalid {l : FrameLatch} (h : l.valid = false) : l.Inv :=
  fun hvalid => absurd hvalid (by simp [h])

theorem ValuesLatch.inv_of_invalid {l : ValuesLatch} (h : l.valid = false) : l.Inv :=
  fun hvalid => absurd hvalid (by simp [h])

/-- The invariant speaks of the block alone. -/
theorem State.SameBlock.inv {s t : State} (h : s.SameBlock t) (hinv : s.Inv) : t.Inv := by
  obtain ⟨hframe, hvalues, -, herr⟩ := h
  rw [State.Inv, hframe, hvalues, herr]
  exact hinv

theorem resetBlock_inv (s : State) : s.resetBlock.Inv :=
  ⟨FrameLatch.inv_of_invalid rfl, ValuesLatch.inv_of_invalid rfl, .inl rfl⟩

/-- BUILD_WRITE leaves a request frame or an invalid latch. -/
theorem buildWrite_inv (dev : Byte) (addr : U16) (vals : List Int) {s : State} (h : s.Inv) :
    (buildWrite dev addr vals s).Inv := by
  obtain ⟨-, hvalues, -⟩ := h
  obtain ⟨hfew, hb⟩ | ⟨-, hb⟩ := buildWrite_cases dev addr vals s
  · rw [hb]
    exact ⟨s.frame.inv_load (isRequestFrame_writeFrame dev addr (by simpa using hfew)), hvalues, .inl rfl⟩
  · rw [hb]
    exact ⟨FrameLatch.inv_of_invalid rfl, hvalues, .inr rfl⟩

/-- Every operation of the block keeps the invariant. -/
theorem State.Issues.inv {s u v : State} {i : Instr} (hissues : s.Issues i) (hexec : exec i u = .next v)
    (h : u.Inv) : v.Inv := by
  obtain ⟨dev, addr, vals, rfl⟩ | ⟨dev, addr, rfl⟩ | ⟨raw, rfl⟩ | ⟨cs, rfl⟩ := hissues.next_cases hexec
  · exact buildWrite_inv dev addr vals h
  · obtain ⟨-, hvalues, -⟩ := h
    exact ⟨u.frame.inv_load (isRequestFrame_readFrame dev addr), hvalues, .inl rfl⟩
  · obtain ⟨hframe, -, -⟩ := h
    exact ⟨hframe, u.values.inv_load_parseValues raw, .inl rfl⟩
  · obtain ⟨hframe, hvalues, -⟩ := h
    exact ⟨hframe, hvalues, .inl rfl⟩

/-- Settles O50: a reset invalidates the latches, an operation loads what meets R35, and anything else keeps the block. -/
theorem everyStepKeepsTheLatchInvariant : Obligations.EveryStepKeepsTheLatchInvariant := by
  intro s t hinv hstep
  cases stepEffect_of_step hstep with
  | reset hline hblock => exact hblock.1.inv (resetBlock_inv s)
  | keeps hsame => exact hsame.1.inv hinv
  | carries hframe hblock htraffic => exact hblock.inv hinv
  | operates hissues hbefore hexec hafter => exact hafter.1.inv (hissues.inv hexec (hbefore.1.inv hinv))

/-! ### The traffic invariant -/

/-- The invariant speaks of the block and the traffic alone. -/
theorem State.SameBlockAndTraffic.trafficInv {s t : State} (h : s.SameBlockAndTraffic t) (hinv : s.TrafficInv) :
    t.TrafficInv := by
  obtain ⟨⟨hframe, -⟩, htraffic⟩ := h
  rw [State.TrafficInv, hframe, htraffic]
  exact hinv

theorem resetBlock_trafficInv {s : State} (h : s.TrafficInv) : s.resetBlock.TrafficInv :=
  ⟨fun hvalid => absurd hvalid (by simp), h.2⟩

/-- One transaction hands over one frame. -/
theorem State.Carries.mem_traffic {f g : List Byte} {s t : State} {a : WriteAnswer} (h : s.Carries f t)
    (hg : .write g a ∈ t.traffic) : .write g a ∈ s.traffic ∨ g = f := by
  obtain htraffic | ⟨n, answer, htraffic⟩ := h
  all_goals
    simp only [htraffic, List.mem_append, List.mem_cons, TransportCall.write.injEq, List.not_mem_nil, or_false,
      reduceCtorEq] at hg
    exact hg.imp_right And.left

/-- Every operation of the block keeps the traffic invariant: a build loads a request frame or leaves none. -/
theorem State.Issues.trafficInv {s u v : State} {i : Instr} (hissues : s.Issues i) (hexec : exec i u = .next v)
    (h : u.TrafficInv) : v.TrafficInv := by
  obtain ⟨hframe, htraffic⟩ := h
  refine ⟨?_, by rwa [hissues.traffic_eq hexec]⟩
  obtain ⟨dev, addr, vals, rfl⟩ | ⟨dev, addr, rfl⟩ | ⟨raw, rfl⟩ | ⟨cs, rfl⟩ := hissues.next_cases hexec
  · intro hvalid
    by_cases hfew : vals.length ≤ 6
    · rw [buildWrite_frame_contents dev addr u hfew]
      exact isRequestFrame_writeFrame dev addr (by simpa using hfew)
    · rw [buildWrite_of_lt dev addr u (by omega)] at hvalid
      simp at hvalid
  · intro _
    rw [buildRead_frame_contents]
    exact isRequestFrame_readFrame dev addr
  · exact hframe
  · exact hframe

/-- Settles O51: a transaction carries the frame in the latch or one that the decoder has accepted. -/
theorem everyStepSendsOnlyRequestFrames : Obligations.EveryStepSendsOnlyRequestFrames := by
  intro s t hinv hstep
  cases stepEffect_of_step hstep with
  | reset hline hblock => exact hblock.trafficInv (resetBlock_trafficInv hinv)
  | keeps hsame => exact hsame.trafficInv hinv
  | @carries f hframe hblock htraffic =>
    obtain ⟨hheld, hsent⟩ := hinv
    have hf : IsRequestFrame f := by
      obtain ⟨hvalid, rfl⟩ | hrequest := hframe
      · exact hheld hvalid
      · exact hrequest
    obtain ⟨hlatch, -⟩ := hblock
    refine ⟨hlatch ▸ hheld, fun g a hg => ?_⟩
    obtain hold | rfl := htraffic.mem_traffic hg
    · exact hsent g a hold
    · exact hf
  | operates hissues hbefore hexec hafter =>
    exact hafter.trafficInv (hissues.trafficInv hexec (hbefore.trafficInv hinv))

/-- Settles O3: at reset no latch is valid, and nothing has been handed to the transport. -/
theorem latchInvariantHoldsAtReset : Obligations.LatchInvariantHoldsAtReset := by
  refine ⟨⟨FrameLatch.inv_of_invalid rfl, ValuesLatch.inv_of_invalid rfl, .inl rfl⟩, ?_, ?_⟩
  · intro hvalid
    simp [State.reset] at hvalid
  · intro f answer hsent
    simp [State.reset] at hsent

/-! ### Where a latch can change -/

/-- The host issues a build, on the port or as the first action of a host operation. -/
def State.IssuesBuild (s : State) : Prop :=
  s.task = .idle ∧ ∃ e rest, s.pending = e :: rest ∧
    ((∃ p, e = .request (.port p) ∧ (p.op = 0b00 ∨ p.op = 0b01)) ∨ (∃ d n v, e = .writeRegister d n v) ∨
     (∃ d n k, e = .readRegister d n k))

/-- The host issues PARSE, of a response that it holds or on the port. -/
def State.IssuesParse (s : State) : Prop :=
  (∃ r, s.task = .received r) ∨
  (s.task = .idle ∧ ∃ p rest, s.pending = .request (.port p) :: rest ∧ p.op = 0b10)

/-- The host issues CHECKSUM on the port. -/
def State.IssuesChecksum (s : State) : Prop :=
  s.task = .idle ∧ ∃ p rest, s.pending = .request (.port p) :: rest ∧ p.op = 0b11

/-- BUILD_WRITE leaves VALUES and CSUM (R29). -/
theorem buildWrite_values_csum (dev : Byte) (addr : U16) (vals : List Int) (s : State) :
    (buildWrite dev addr vals s).values = s.values ∧ (buildWrite dev addr vals s).csum = s.csum := by
  obtain ⟨-, hb⟩ | ⟨-, hb⟩ := buildWrite_cases dev addr vals s
  all_goals
    rw [hb]
    exact ⟨rfl, rfl⟩

/-- Each operation keeps the two latches that are not its own (R29). -/
theorem State.Issues.own_latch {s u v : State} {i : Instr} (hissues : s.Issues i) (hexec : exec i u = .next v) :
    (s.IssuesBuild ∧ v.values = u.values ∧ v.csum = u.csum) ∨
    (s.IssuesParse ∧ v.frame = u.frame ∧ v.csum = u.csum) ∨
    (s.IssuesChecksum ∧ v.frame = u.frame ∧ v.values = u.values) := by
  cases hissues with
  | @port p rest hidle hpending =>
    obtain ⟨hop, hp⟩ | ⟨hop, hp⟩ | ⟨hop, hp⟩ | ⟨hop, hp⟩ := decodePorts_cases p
    all_goals
      rw [hp] at hexec
      cases hexec
    · exact .inl ⟨⟨hidle, _, _, hpending, .inl ⟨p, rfl, .inl hop⟩⟩, buildWrite_values_csum ..⟩
    · exact .inl ⟨⟨hidle, _, _, hpending, .inl ⟨p, rfl, .inr hop⟩⟩, rfl, rfl⟩
    · exact .inr (.inl ⟨.inr ⟨hidle, p, rest, hpending, hop⟩, rfl, rfl⟩)
    · exact .inr (.inr ⟨⟨hidle, p, rest, hpending, hop⟩, rfl, rfl⟩)
  | writeRegister hidle hpending =>
    cases hexec
    exact .inl ⟨⟨hidle, _, _, hpending, .inr (.inl ⟨_, _, _, rfl⟩)⟩, buildWrite_values_csum ..⟩
  | readRegister hidle hpending =>
    cases hexec
    exact .inl ⟨⟨hidle, _, _, hpending, .inr (.inr ⟨_, _, _, rfl⟩)⟩, rfl, rfl⟩
  | response hreceived =>
    cases hexec
    exact .inr (.inl ⟨.inl ⟨_, hreceived⟩, rfl, rfl⟩)

/-- A step that keeps the block changes no latch. -/
theorem State.SameBlock.latches {s t : State} (h : s.SameBlock t) :
    t.frame = s.frame ∧ t.values = s.values ∧ t.csum = s.csum := by
  obtain ⟨hframe, hvalues, hcsum, -⟩ := h
  exact ⟨hframe, hvalues, hcsum⟩

/-- Settles O52: a reset leaves every latch invalid, an operation keeps the latches that are not its own, and any other
step keeps the block. -/
theorem latchesChangeOnlyByTheirOwnOperation : Obligations.LatchesChangeOnlyByTheirOwnOperation := by
  intro s t hstep
  cases stepEffect_of_step hstep with
  | @reset later hline hblock =>
    obtain ⟨hframe, hvalues, hcsum⟩ := hblock.1.latches
    exact ⟨fun _ => .inl ⟨⟨later, hline⟩, by rw [hframe]; rfl⟩, fun _ => .inl ⟨⟨later, hline⟩, by rw [hvalues]; rfl⟩,
      fun _ => .inl ⟨⟨later, hline⟩, by rw [hcsum]; rfl⟩⟩
  | keeps hsame =>
    obtain ⟨hframe, hvalues, hcsum⟩ := hsame.1.latches
    exact ⟨absurd hframe, absurd hvalues, absurd hcsum⟩
  | carries hframe hblock htraffic =>
    obtain ⟨hframe, hvalues, hcsum⟩ := hblock.latches
    exact ⟨absurd hframe, absurd hvalues, absurd hcsum⟩
  | operates hissues hbefore hexec hafter =>
    obtain ⟨hframe, hvalues, hcsum⟩ := hbefore.1.latches
    obtain ⟨hframe', hvalues', hcsum'⟩ := hafter.1.latches
    rw [hframe', hvalues', hcsum', ← hframe, ← hvalues, ← hcsum]
    obtain ⟨hbuild, hv, hc⟩ | ⟨hparse, hf, hc⟩ | ⟨hchecksum, hf, hv⟩ := hissues.own_latch hexec
    · exact ⟨fun _ => .inr hbuild, absurd hv, absurd hc⟩
    · exact ⟨absurd hf, fun _ => .inr hparse, absurd hc⟩
    · exact ⟨absurd hf, absurd hv, fun _ => .inr hchecksum⟩

/-! ### Where a step can fault -/

/-- Every instruction's meaning is a next state. -/
theorem exists_exec_eq_next (i : Instr) (s : State) : ∃ t, exec i s = .next t := by
  cases i
  all_goals exact ⟨_, rfl⟩

/-- Of the host's events only a latch read can fault (R30). -/
theorem runEvent_fault {e : HostEvent} {s : State} {fault : Fault} (h : runEvent e s = .fault fault) :
    ∃ f, e = .readLatch f ∧ readLatch f s = .error fault := by
  cases e with
  | request r =>
    cases hdecode : decode r with
    | ok i =>
      obtain ⟨t, ht⟩ := exists_exec_eq_next i s
      cases ht.symm.trans ((runEvent_request hdecode s).symm.trans h)
    | error reason => simp [runEvent, hdecode] at h
  | writeRegister dev name vals =>
    obtain ⟨-, hw⟩ | ⟨-, hw⟩ | ⟨addr, -, hw⟩ := writeRegister_cases dev name vals s
    all_goals cases hw.symm.trans h
  | readRegister dev name n =>
    obtain ⟨-, hr⟩ | ⟨-, hr⟩ | ⟨addr, -, hr⟩ := readRegister_cases dev name n s
    all_goals cases hr.symm.trans h
  | readLatch f =>
    cases hread : readLatch f s with
    | ok v => simp [runEvent, hread] at h
    | error e =>
      simp only [runEvent, hread] at h
      cases h
      exact ⟨f, rfl, hread⟩

/-- The host's action faults at a latch read of its own, or at a read-out of a host operation from an invalid latch. -/
theorem hostAction_fault {s : State} {fault : Fault} (h : hostAction s = .fault fault) :
    (∃ f rest, s.task = .idle ∧ s.pending = .readLatch f :: rest ∧ readLatch f s = .error fault) ∨
    ((s.task = .writeBuilt ∨ ∃ n, s.task = .readBuilt n) ∧ s.frame.valid = false ∧
      fault = .readInvalidLatch .frameLen) ∨
    (s.task = .parsed ∧ s.values.valid = false ∧ fault = .readInvalidLatch .valueCount) := by
  obtain ⟨htask, ha⟩ | ⟨n, htask, ha⟩ | ⟨r, -, ha⟩ | ⟨htask, ha⟩ | ⟨-, ha⟩ | ⟨e, rest, hidle, hpending, ha⟩ :=
    hostAction_cases s
  all_goals rw [ha] at h
  · obtain ⟨-, hf⟩ | ⟨-, hinvalid, hf⟩ | ⟨-, -, hf⟩ := finishWrite_cases s
    all_goals cases hf.symm.trans h
    exact .inr (.inl ⟨.inl htask, hinvalid, rfl⟩)
  · obtain ⟨hinvalid, hf⟩ | ⟨-, hf⟩ := finishRead_cases n s
    all_goals cases hf.symm.trans h
    exact .inr (.inl ⟨.inr ⟨n, htask⟩, hinvalid, rfl⟩)
  · cases h
  · obtain ⟨hinvalid, hf⟩ | ⟨-, hf⟩ := returnValues_cases s
    all_goals cases hf.symm.trans h
    exact .inr (.inr ⟨htask, hinvalid, rfl⟩)
  · cases h
  · obtain ⟨f, rfl, hread⟩ := runEvent_fault h
    exact .inl ⟨f, rest, hidle, hpending, by rwa [readLatch_host] at hread⟩

/-- Settles O53: neither a reset nor a refusal is a fault, and the host's action faults only where a latch holds no
value. -/
theorem onlyInvalidReadsFault : Obligations.OnlyInvalidReadsFault := by
  intro s fault hstep
  obtain ⟨-, later, -, hs⟩ | ⟨-, -, hs⟩ | ⟨-, hs⟩ := step_eq s
  all_goals rw [hs] at hstep
  · cases hstep
  · obtain ⟨f, rest, hidle, hpending, hread⟩ | ⟨htask, hinvalid, rfl⟩ | ⟨htask, hinvalid, rfl⟩ := hostAction_fault hstep
    · rw [readLatch_host] at hread
      obtain rfl := readLatch_error hread
      exact ⟨f, rfl, hread, .inl ⟨hidle, rest, hpending⟩⟩
    · exact ⟨.frameLen, rfl, (readLatch_frameLen_faults_iff s).mpr hinvalid, .inr (.inl ⟨rfl, htask⟩)⟩
    · exact ⟨.valueCount, rfl, (readLatch_valueCount_faults_iff s).mpr hinvalid, .inr (.inr ⟨rfl, htask⟩)⟩
  · cases hstep

end Sys2Proof.Machine
end
